-- ==== Sys2Proof/Word.lean ====
section
/-! DEFINITION. The word types and the plain data types of the TEC block: the enumerations of R13, a colour (R20),
the six named Booleans (R13), and a value per side or per category. Numeric codes and accessors, which a test could
show wrong, stand in Machine/Operands.lean. -/

namespace Sys2Proof

/-- A byte: one lane of a packet, one colour channel, the flags byte, a quality sample. -/
abbrev Byte := BitVec 8

/-- A time stamp or the `now` input, `W_T = 32` bits (R3, D3). -/
abbrev Time := BitVec 32

/-- The command word of the command port, 128 bits (R61). -/
abbrev CmdWord := BitVec 128

/-- The result data port, 128 bits (R60, R66). -/
abbrev ResData := BitVec 128

/-- A side (R13): `L` = 0, `R` = 1. -/
inductive Side where
  | left
  | right
  deriving DecidableEq, Repr

/-- A status code of two bits (R13): 0 OFF, 1 ON, 2 FAULT, 3 SIGNAL-NOT-AVAILABLE. -/
inductive StatusCode where
  | off
  | on
  | fault
  | sna
  deriving DecidableEq, Repr

/-- An alert category (R13), in the order of the codes 1 to 5, which is the priority order. -/
inductive Category where
  | turn
  | charging
  | autopilot
  | track
  | plugged
  deriving DecidableEq, Repr

/-- A priority result (R13): a category, or NONE (`none`). -/
abbrev PriorityResult := Option Category

/-- A mode of the mode lifecycle state machine (R13, R191). -/
inductive Mode where
  | booting
  | initTransport
  | waitLink
  | waitData
  | running
  | error
  deriving DecidableEq, Repr

/-- A result status of an operation (R211). -/
inductive Status where
  | ok
  | noPkt
  | badLen
  | badMagic
  | badVersion
  | badChecksum
  | badField
  | filtered
  | yield
  | badOp
  deriving DecidableEq, Repr

/-- The six named Booleans of VehicleState (R13), in the order of `bits6`. -/
structure Bits6 where
  lt : Bool
  rt : Bool
  ap : Bool
  ch : Bool
  pl : Bool
  tr : Bool
  deriving DecidableEq, Repr

/-- All six Booleans false: the reset value (R26) and the safe default of link loss (R117). -/
def Bits6.zero : Bits6 := ⟨false, false, false, false, false, false⟩

/-- A colour of 24 bits, red in bits 23:16 (R20, D15). -/
structure Colour where
  r : Byte
  g : Byte
  b : Byte
  deriving DecidableEq, Repr

/-- One value for each side. -/
structure PerSide (α : Type) where
  left : α
  right : α
  deriving DecidableEq, Repr

/-- One value for each category. -/
structure PerCategory (α : Type) where
  turn : α
  charging : α
  autopilot : α
  track : α
  plugged : α
  deriving DecidableEq, Repr

end Sys2Proof
end

