-- ==== Sys2Proof/Syntax.lean ====
section
/-! DEFINITION. The thirteen operations of the opcode table as one inductive type, over the operand formats of R62 to
R65. A format's record holds every field the format assigns, also those an operation ignores, so that no assigned bit
of a command word is lost. -/

namespace Sys2Proof

/-- Format X (R62): a payload and a bit field of it. -/
structure FormatX where
  payload : BitVec 64
  start : BitVec 6
  width : BitVec 7
  deriving DecidableEq, Repr

/-- Format F (R62): a frame. -/
structure FormatF where
  payload : BitVec 64
  id : BitVec 11
  dlc : BitVec 4
  deriving DecidableEq, Repr

/-- Format P (R63): packet bytes in twelve lanes, a length, and the optional quality sample of RX. -/
structure FormatP where
  bytes : BitVec 96
  len : BitVec 4
  qv : Bool
  q : Byte
  deriving DecidableEq, Repr

/-- Format E (R64): the fields of a packet. -/
structure FormatE where
  left : BitVec 2
  right : BitVec 2
  flags : Byte
  seq : BitVec 32
  clock : BitVec 32
  bits6 : BitVec 6
  deriving DecidableEq, Repr

/-- Format Q (R65): the explicit inputs of the arbiter. -/
structure FormatQ where
  cond : BitVec 5
  en : BitVec 5
  alerts : Bool
  deriving DecidableEq, Repr

/-- Format V (R65): the override bits and the test flag. -/
structure FormatV where
  bits6 : BitVec 6
  en : Bool
  deriving DecidableEq, Repr

/-- Format I (R65): the outcome of transport initialisation. -/
structure FormatI where
  ok : Bool
  deriving DecidableEq, Repr

/-- The operations of R67, one constructor per row of the opcode table. -/
inductive Instr where
  | bfx (o : FormatX)
  | sdec (o : FormatF)
  | csum (o : FormatP)
  | pkenc (o : FormatE)
  | pkdec (o : FormatP)
  | rx (o : FormatP)
  | poll
  | tick
  | reconf
  | ovrd (o : FormatV)
  | stat
  | tinit (o : FormatI)
  | arb (o : FormatQ)
  deriving DecidableEq, Repr

end Sys2Proof
end

