-- ==== Sys2Proof/WellFormed.lean ====
section
/-! DEFINITION. Which instructions keep the caller's duties on their operands: BFX the extractor's precondition (R69,
R82, R245), CSUM a count of at most twelve lanes (R68). Every other operand value of every format is legal. An
ill-formed instruction still decodes: CSUM then answers BAD_OP and BFX is refused by name. -/

namespace Sys2Proof

/-- The operand checks of R68 and R69. -/
def Instr.wellFormed : Instr → Bool
  | .bfx o => decide (1 ≤ o.width.toNat) && decide (o.width.toNat ≤ 64) &&
      decide (o.start.toNat + o.width.toNat ≤ 64)
  | .csum o => decide (o.len.toNat ≤ 12)
  | .sdec _ => true
  | .pkenc _ => true
  | .pkdec _ => true
  | .rx _ => true
  | .poll => true
  | .tick => true
  | .reconf => true
  | .ovrd _ => true
  | .stat => true
  | .tinit _ => true
  | .arb _ => true

end Sys2Proof
end

