-- ==== Sys2Proof/Decode.lean ====
section
/-! DEFINITION. The command word (R61 to R68): the decoder, total on any 128 bits and rejecting a reserved opcode by
name; the encoder; and the host's entry decodeTableWord. -/

namespace Sys2Proof

/-- Why a command word is no operation. -/
inductive DecodeReject where
  /-- `op` is 0x0, 0xE or 0xF (R67, R68); the block answers BAD_OP. -/
  | reservedOpcode (op : BitVec 4)
  deriving DecidableEq, Repr

/-- `cmd[127:124]`, the opcode field (R61). -/
def opOf (w : CmdWord) : BitVec 4 := w.extractLsb' 124 4

/-- One bit of a word as a Boolean: a 1-bit field, 1 is true (00_scope.md section 5). -/
def bitOf (w : CmdWord) (k : Nat) : Bool := w.getLsbD k

/-- The fields of format X (R62). -/
def parseX (w : CmdWord) : FormatX :=
  { payload := w.extractLsb' 0 64, start := w.extractLsb' 64 6, width := w.extractLsb' 70 7 }

/-- The fields of format F (R62). -/
def parseF (w : CmdWord) : FormatF :=
  { payload := w.extractLsb' 0 64, id := w.extractLsb' 64 11, dlc := w.extractLsb' 75 4 }

/-- The fields of format P (R63). -/
def parseP (w : CmdWord) : FormatP :=
  { bytes := w.extractLsb' 0 96, len := w.extractLsb' 96 4, qv := bitOf w 100, q := w.extractLsb' 101 8 }

/-- The fields of format E (R64). -/
def parseE (w : CmdWord) : FormatE :=
  { left := w.extractLsb' 0 2, right := w.extractLsb' 2 2, flags := w.extractLsb' 4 8,
    seq := w.extractLsb' 12 32, clock := w.extractLsb' 44 32, bits6 := w.extractLsb' 76 6 }

/-- The fields of format Q (R65). -/
def parseQ (w : CmdWord) : FormatQ :=
  { cond := w.extractLsb' 0 5, en := w.extractLsb' 5 5, alerts := bitOf w 10 }

/-- The fields of format V (R65). -/
def parseV (w : CmdWord) : FormatV :=
  { bits6 := w.extractLsb' 0 6, en := bitOf w 6 }

/-- The field of format I (R65). -/
def parseI (w : CmdWord) : FormatI :=
  { ok := bitOf w 0 }

/-- The opcode map of R67: sixteen values, thirteen assigned. -/
def decode (w : CmdWord) : Except DecodeReject Instr :=
  match (opOf w).toNat with
  | 0x1 => .ok (.bfx (parseX w))
  | 0x2 => .ok (.sdec (parseF w))
  | 0x3 => .ok (.csum (parseP w))
  | 0x4 => .ok (.pkenc (parseE w))
  | 0x5 => .ok (.pkdec (parseP w))
  | 0x6 => .ok (.rx (parseP w))
  | 0x7 => .ok .poll
  | 0x8 => .ok .tick
  | 0x9 => .ok .reconf
  | 0xA => .ok (.ovrd (parseV w))
  | 0xB => .ok .stat
  | 0xC => .ok (.tinit (parseI w))
  | 0xD => .ok (.arb (parseQ w))
  | _ => .error (.reservedOpcode (opOf w))

/-- A field placed in a word of `n` bits with its lowest bit at bit `lo`, the other bits 0. A layout is the `|||` of its
fields, each with the bit position its table gives. -/
def place {w : Nat} (n lo : Nat) (v : BitVec w) : BitVec n := v.setWidth n <<< lo

/-- A 1-bit field placed at a bit. -/
def placeBit (n lo : Nat) (b : Bool) : BitVec n := place n lo (BitVec.ofBool b)

/-- Format X laid out in `O`, reserved bits 0 (R61, R62). -/
def packX (o : FormatX) : BitVec 124 := place 124 0 o.payload ||| place 124 64 o.start ||| place 124 70 o.width

/-- Format F laid out in `O` (R62). -/
def packF (o : FormatF) : BitVec 124 := place 124 0 o.payload ||| place 124 64 o.id ||| place 124 75 o.dlc

/-- Format P laid out in `O` (R63). -/
def packP (o : FormatP) : BitVec 124 :=
  place 124 0 o.bytes ||| place 124 96 o.len ||| placeBit 124 100 o.qv ||| place 124 101 o.q

/-- The 82 bits of format E (R64): operand layout of PKENC and result layout of PKDEC. -/
def layoutE (o : FormatE) : BitVec 82 :=
  place 82 0 o.left ||| place 82 2 o.right ||| place 82 4 o.flags ||| place 82 12 o.seq ||| place 82 44 o.clock |||
    place 82 76 o.bits6

/-- Format E laid out in `O` (R64). -/
def packE (o : FormatE) : BitVec 124 := place 124 0 (layoutE o)

/-- Format Q laid out in `O` (R65). -/
def packQ (o : FormatQ) : BitVec 124 := place 124 0 o.cond ||| place 124 5 o.en ||| placeBit 124 10 o.alerts

/-- Format V laid out in `O` (R65). -/
def packV (o : FormatV) : BitVec 124 := place 124 0 o.bits6 ||| placeBit 124 6 o.en

/-- Format I laid out in `O` (R65). -/
def packI (o : FormatI) : BitVec 124 := placeBit 124 0 o.ok

/-- The opcode of an operation (R67). -/
def Instr.opcode : Instr → BitVec 4
  | .bfx _ => 0x1
  | .sdec _ => 0x2
  | .csum _ => 0x3
  | .pkenc _ => 0x4
  | .pkdec _ => 0x5
  | .rx _ => 0x6
  | .poll => 0x7
  | .tick => 0x8
  | .reconf => 0x9
  | .ovrd _ => 0xA
  | .stat => 0xB
  | .tinit _ => 0xC
  | .arb _ => 0xD

/-- The operand field `O` of an operation (R61 to R65). -/
def Instr.operandField : Instr → BitVec 124
  | .bfx o => packX o
  | .sdec o => packF o
  | .csum o => packP o
  | .pkenc o => packE o
  | .pkdec o => packP o
  | .rx o => packP o
  | .poll => 0
  | .tick => 0
  | .reconf => 0
  | .ovrd o => packV o
  | .stat => 0
  | .tinit o => packI o
  | .arb o => packQ o

/-- The command word of an operation, reserved bits 0 (R61). -/
def encode (i : Instr) : CmdWord := place 128 124 i.opcode ||| place 128 0 i.operandField

/-- The opcode field's bits and the lowest `n` bits of a command word. -/
def opAndLow (n : Nat) : CmdWord := BitVec.ofNat 128 (0xF * 2 ^ 124 + (2 ^ n - 1))

/-- The bits of a command word that mean something for an operation: the opcode and the fields its format assigns.
In every format of R62 to R65 the assigned fields fill `O` from bit 0 up without a gap. -/
def Instr.assignedBits : Instr → CmdWord
  | .bfx _ => opAndLow 77
  | .sdec _ => opAndLow 79
  | .csum _ => opAndLow 109
  | .pkenc _ => opAndLow 82
  | .pkdec _ => opAndLow 109
  | .rx _ => opAndLow 109
  | .poll => opAndLow 0
  | .tick => opAndLow 0
  | .reconf => opAndLow 0
  | .ovrd _ => opAndLow 7
  | .stat => opAndLow 0
  | .tinit _ => opAndLow 1
  | .arb _ => opAndLow 11

/-- The word the opcode table's numbering names: one 128-bit command word, bit 0 its least significant bit. -/
def tableWord (nbits w : Nat) : CmdWord := BitVec.ofNat 128 (w % 2 ^ nbits)

/-- The instruction the decoder reads from a word numbered as spec/opcode_table.json numbers it. -/
def decodeTableWord (nbits w : Nat) : Option Instr :=
  match decode (tableWord nbits w) with
  | .ok i => some i
  | .error _ => none

end Sys2Proof
end

