-- ==== Sys2Proof/Config.lean ====
section
/-! DEFINITION. What is fixed for a run: the parameters of R3 (a record; State carries one that no step writes, log 1),
the shape of the configuration record of R20, and the two free values (PULSE8 away from the quarter points, U8, log 5;
the colours of diagnostic frames, U7, log 6). -/

namespace Sys2Proof

/-- The wire format of the radio packet, parameter `PKT_FMT` (R3). -/
inductive PktFmt where
  | a
  | b
  deriving DecidableEq, Repr

/-- The bit position of each of the six flags in format B's bitmask, parameter `B_BIT` (R3, R93). -/
structure BBit where
  lt : Fin 8
  rt : Fin 8
  ap : Fin 8
  ch : Fin 8
  pl : Fin 8
  tr : Fin 8
  deriving DecidableEq, Repr

/-- The parameters of R3 that the model keeps open. `W_T` is 32 (D3); `PKT_LEN` and `SW` follow from the format
(Machine/Operands.lean); `PULSE8` is a function and stands below; `CFG0` is what `cfg_port` shows at reset.
The offsets have the range R4 gives them: `off + 2 <= 64`. -/
structure Params where
  /-- `PKT_FMT`. -/
  fmt : PktFmt
  /-- `MAGIC`, the magic byte of format A. -/
  magic : Byte
  /-- `VERSION`, the version byte of format A. -/
  version : Byte
  /-- `FRAME_ID`. -/
  frameId : BitVec 11
  /-- `LEFT_OFF`. -/
  leftOff : Fin 63
  /-- `RIGHT_OFF`. -/
  rightOff : Fin 63
  /-- `MAX_LEN`. -/
  maxLen : Nat
  /-- `B_BIT`. -/
  bBit : BBit
  /-- `B_SEQ_LE`: format B's sequence is little-endian. -/
  bSeqLe : Bool
  /-- `HAS_MODE_FSM`. -/
  hasModeFsm : Bool
  deriving DecidableEq, Repr

/-- The configuration record: the shape of `CFG` and of `cfg_port` (R20, R47). -/
structure CfgRec where
  alertsEn : Bool
  en : PerCategory Bool
  colAmbient : Colour
  col : PerCategory Colour
  len : PerSide (BitVec 16)
  tail : PerSide (BitVec 16)
  period : PerCategory (BitVec 32)
  baseline : Byte
  range : Byte
  gbright : Byte
  framePeriod : BitVec 32
  hold : BitVec 32
  deadWindow : BitVec 32
  heartbeat : BitVec 32
  bootTime : BitVec 32
  dataTimeout : BitVec 32
  linkTimeout : BitVec 32
  deriving DecidableEq, Repr

/-- The free part of `PULSE8(r, P)` (R153, U8): its value away from the four pinned points. A byte, so within 0..255.
No body: nothing can be proved of its value. -/
opaque Config.pulse8Free : Nat → Nat → Byte

/-- The free colours of the diagnostic frames (R198, U7): draw number `k`. No body. -/
opaque Config.freeColour : Nat → BitVec 24

/-- The parameter values State.reset carries: the defaults of R3 where it gives one; `MAGIC` and `VERSION` the example
values of the spec (D25); `MAX_LEN` the largest length a 16-bit `CFG.LEN` can hold.
DESIGN CHOICE (log 2): unsafe, so no statement fixes them. -/
def Config.params0 : Params where
  fmt := .a
  magic := 0xA5
  version := 0x01
  frameId := 0x3F5
  leftOff := 50
  rightOff := 52
  maxLen := 65535
  bBit := ⟨0, 1, 2, 3, 4, 5⟩
  bSeqLe := true
  hasModeFsm := false

/-- The record `CFG0` State.reset finds on `cfg_port`: the record `EX` that 95_test_vectors.md section 0 presents at
reset. DESIGN CHOICE (log 2): `CFG0` is OPEN (R3); unsafe, so no statement fixes it. -/
def Config.cfg0 : CfgRec where
  alertsEn := true
  en := ⟨true, true, true, true, true⟩
  colAmbient := ⟨0x10, 0x10, 0x10⟩
  col := ⟨⟨0xFF, 0x80, 0x00⟩, ⟨0x00, 0xFF, 0x00⟩, ⟨0x00, 0x00, 0xFF⟩, ⟨0xFF, 0x00, 0x00⟩, ⟨0x00, 0xFF, 0xFF⟩⟩
  len := ⟨8, 8⟩
  tail := ⟨3, 3⟩
  period := ⟨400, 2000, 2000, 2000, 2000⟩
  baseline := 51
  range := 204
  gbright := 255
  framePeriod := 20
  hold := 180
  deadWindow := 700
  heartbeat := 150
  bootTime := 500
  dataTimeout := 1000
  linkTimeout := 2000

end Sys2Proof
end

