-- ==== Sys2Proof/Machine/State.lean ====
section
/-! DEFINITION. The state of the TEC block (10_state.md), the pins the environment drives (R60), the answer of the last
operation, why a step can stop, and the state right after reset (R26). Everything is plain data. -/

namespace Sys2Proof.Machine

/-- `VS`, the vehicle state (R14). -/
structure VehicleState where
  bits6 : Bits6
  ls : StatusCode
  rs : StatusCode
  flags : Byte
  deriving DecidableEq, Repr

/-- `LV`, the liveness record (R15). -/
structure LivenessRecord where
  valid : Bool
  lastRx : Time
  lastSeq : BitVec 32
  qValid : Bool
  q : Byte
  senderClock : BitVec 32
  deriving DecidableEq, Repr

/-- `DB[s]`, the debounce record of one side (R16). -/
structure DebounceRec where
  active : Bool
  lastTrue : Time
  deriving DecidableEq, Repr

/-- `MB`, the mailbox cell (R18); `data[8k+7:8k]` is byte `k` of the packet. -/
structure Mailbox where
  fresh : Bool
  len : BitVec 4
  data : BitVec 96
  rxTime : Time
  qValid : Bool
  q : Byte
  deriving DecidableEq, Repr

/-- `OVR`, the override register (R19). -/
structure OverrideReg where
  en : Bool
  bits6 : Bits6
  deriving DecidableEq, Repr

/-- `MODE`, `MODE_T`, `DATA_T`, `DATA_V` (R24). Read and written only when `HAS_MODE_FSM = 1`. -/
structure ModeRegs where
  mode : Mode
  modeT : Time
  dataT : Time
  dataV : Bool
  deriving DecidableEq, Repr

/-- One setting of the input ports of R60. -/
structure Pins where
  rst : Bool
  cmdValid : Bool
  cmd : CmdWord
  now : Time
  cfgPort : CfgRec
  deriving DecidableEq, Repr

/-- An event on the surface port (R44 to R46). -/
inductive SurfEvent where
  /-- `SURF_WRITE(s, i, colour)`. -/
  | surfWrite (s : Side) (i : Nat) (c : Colour)
  /-- `SURF_SHOW(s)`. -/
  | surfShow (s : Side)
  /-- `SURF_CONFIG(len_L, len_R, g)`. -/
  | surfConfig (lenL lenR : BitVec 16) (g : Byte)
  deriving DecidableEq, Repr

/-- The answer of an operation: `res_status`, `res_data` and `stat_cfg` (R60). `statCfg` is the record where the port
is valid, with the result of STAT, and `none` elsewhere (log 8). -/
structure Answer where
  status : Status
  data : ResData
  statCfg : Option CfgRec
  deriving DecidableEq, Repr

/-- The state. The first ten fields after `params` are the registers of R10; the rest are the ports and the model's own
fields (log 1, 3, 4, 6, 8). -/
structure State where
  /-- The parameters of R3: no step writes them (log 1). -/
  params : Params
  /-- `VS` (R14). -/
  vs : VehicleState
  /-- `LV` (R15). -/
  lv : LivenessRecord
  /-- `DB[L]`, `DB[R]` (R16). -/
  db : PerSide DebounceRec
  /-- `TF`, the frame timer (R17). -/
  tf : Time
  /-- `MB`, the mailbox cell (R18). -/
  mb : Mailbox
  /-- `OVR` (R19). -/
  ovr : OverrideReg
  /-- `RXSTAT` (R19). -/
  rxstat : Status
  /-- `CFG` (R20). -/
  cfg : CfgRec
  /-- The mode registers (R24). -/
  mls : ModeRegs
  /-- The input ports as the environment drives them at this step (R60). -/
  pins : Pins
  /-- `rst` was high at the step before: a low `rst` now is the release of R240 (log 4). -/
  rstHeld : Bool
  /-- What the environment will drive on the pins at the steps to come, in order (log 3). -/
  script : List Pins
  /-- The answer of the operation of the last step; `none` when it performed none (log 8). -/
  answer : Option Answer
  /-- The surface events of the last step, in order (R60, R158). -/
  surf : List SurfEvent
  /-- How many free colours have been drawn (R198, U7; log 6). -/
  draws : Nat
  deriving DecidableEq, Repr

/-- Why a step can stop the machine with a fault. There is no constructor: the block has no exceptions and no traps,
and every failure is a value on `res_status` (R210, R214). -/
inductive Fault where
  deriving DecidableEq, Repr

/-- Why a step has no meaning. -/
inductive Refusal where
  /-- Raised by an arm of exec whose instruction has no meaning yet. Safe: nothing is claimed of it. -/
  | notModelled (mnemonic : String)
  /-- Raised by BFX with `width = 0`, `width > 64` or `start + width > 64`: the source calls it undefined and the spec
  says a model refuses it (R69, R82, U1). Safe: nothing is claimed of such a run. -/
  | extractPrecondition
  /-- Raised by RECONF, and by the release of reset, when the record on `cfg_port` breaks R21: undefined, and the spec
  says a model refuses it (R21, U5). Safe: nothing is claimed of such a run. -/
  | illegalConfig
  deriving DecidableEq, Repr

/-- `VS` after reset (R26), and the safe default of link loss (R117). -/
def VehicleState.zero : VehicleState := { bits6 := .zero, ls := .off, rs := .off, flags := 0 }

/-- `LV` after reset (R26). -/
def LivenessRecord.zero : LivenessRecord :=
  { valid := false, lastRx := 0, lastSeq := 0, qValid := false, q := 0, senderClock := 0 }

/-- `DB[s]` after reset (R26). -/
def DebounceRec.zero : DebounceRec := { active := false, lastTrue := 0 }

/-- `MB` after reset (R26). -/
def Mailbox.zero : Mailbox := { fresh := false, len := 0, data := 0, rxTime := 0, qValid := false, q := 0 }

/-- `OVR` after reset (R26). -/
def OverrideReg.zero : OverrideReg := { en := false, bits6 := .zero }

/-- The mode registers after reset at `t0` (R26). -/
def ModeRegs.atReset (t0 : Time) : ModeRegs := { mode := .booting, modeT := t0, dataT := 0, dataV := false }

/-- The table of R26: every register after a reset released at `t0` with the record `c` on `cfg_port`, and the
`SURF_CONFIG` of R240. The pins show no command and the environment's script is empty. -/
def State.resetAt (p : Params) (t0 : Time) (c : CfgRec) : State where
  params := p
  vs := .zero
  lv := .zero
  db := ⟨.zero, .zero⟩
  tf := t0
  mb := .zero
  ovr := .zero
  rxstat := .noPkt
  cfg := c
  mls := .atReset t0
  pins := { rst := false, cmdValid := false, cmd := 0, now := t0, cfgPort := c }
  rstHeld := false
  script := []
  answer := none
  surf := [.surfConfig c.len.left c.len.right c.gbright]
  draws := 0

/-- The machine right after reset (R26, R240), with the parameters, the time and the record of log 2. -/
def State.reset : State := State.resetAt Config.params0 0 Config.cfg0

end Sys2Proof.Machine
end

