-- ==== Sys2Proof/Machine/Ops.lean ====
section
/-! DEFINITION. The shared operations: the primitives of R42 to R47 over the mailbox, the surface and the configuration
port; the answer of an operation and `raise` (R214); the checks R4 and R21; reset and the pins (R240, R60). There is no
memory (R40), no program counter (R12) and no exception entry or return (R210): `raise` ends an operation with a
status, and that is all a failure does. -/

namespace Sys2Proof

/-- `elapsed(a, b) = (a - b) mod 2^W_T`: the time from `b` to `a` on the wrapping counter (R222). -/
def elapsed (a b : Time) : Time := a - b

/-- The value for a side: `x[s]` of 00_scope.md section 5. -/
def PerSide.get {α : Type} (x : PerSide α) : Side → α
  | .left => x.left
  | .right => x.right

/-- The value for a category: `x[c]` of 00_scope.md section 5. -/
def PerCategory.get {α : Type} (x : PerCategory α) : Category → α
  | .turn => x.turn
  | .charging => x.charging
  | .autopilot => x.autopilot
  | .track => x.track
  | .plugged => x.plugged

/-- The bit positions of format B in the order of `bits6`. -/
def BBit.toList (b : BBit) : List (Fin 8) := [b.lt, b.rt, b.ap, b.ch, b.pl, b.tr]

/-- What R4 asks of the parameters beyond their types: `MAX_LEN >= 1` and six distinct `B_BIT`. -/
def Params.legal (p : Params) : Bool := decide (1 ≤ p.maxLen) && decide p.bBit.toList.Nodup

/-- The hard constraints R21 on a configuration record. -/
def CfgRec.legal (maxLen : Nat) (c : CfgRec) : Bool :=
  decide (1 ≤ c.period.turn.toNat) && decide (1 ≤ c.period.charging.toNat) &&
  decide (1 ≤ c.period.autopilot.toNat) && decide (1 ≤ c.period.track.toNat) &&
  decide (1 ≤ c.period.plugged.toNat) &&
  decide (c.len.left.toNat ≤ maxLen) && decide (c.len.right.toNat ≤ maxLen) &&
  decide (1 ≤ c.baseline.toNat) && decide (c.baseline.toNat + c.range.toNat ≤ 255)

namespace Machine

/-- `now`, sampled with the command (R60, R222). -/
def State.now (s : State) : Time := s.pins.now

/-- `CFG_READ()`: the record now on the configuration port (R47). -/
def State.cfgRead (s : State) : CfgRec := s.pins.cfgPort

/-- The end of an operation: its status, its result data and its surface events (R60, R66). -/
def State.respond (s : State) (st : Status) (data : ResData) (events : List SurfEvent) : State :=
  { s with answer := some { status := st, data := data, statCfg := none }, surf := events }

/-- `raise st` with `res_data` 0 (R214): the operation ends; what was written before stays. -/
def State.raise (s : State) (st : Status) : State := s.respond st 0 []

/-- `MB_PUBLISH(bytes, len, t, qv, q)` (R42): the whole cell is overwritten, fresh or not. -/
def State.mbPublish (s : State) (bytes : BitVec 96) (len : BitVec 4) (t : Time) (qv : Bool) (q : Byte) : State :=
  { s with mb := { fresh := true, len := len, data := bytes, rxTime := t, qValid := qv, q := q } }

/-- The state after `MB_TAKE()` (R43): the freshness marker is cleared. The snapshot it returns is `s.mb`. -/
def State.mbTake (s : State) : State := { s with mb := { s.mb with fresh := false } }

/-- `SURF_CONFIG` with the lengths and the brightness of a record (R46). -/
def surfConfigOf (c : CfgRec) : SurfEvent := .surfConfig c.len.left c.len.right c.gbright

/-- The environment's next setting of the pins. When the script is empty it presents nothing: `rst` and `cmd_valid` go
low and the other pins stay (log 3). -/
def State.advancePins (s : State) : State :=
  match s.script with
  | [] => { s with pins := { s.pins with rst := false, cmdValid := false } }
  | p :: ps => { s with pins := p, script := ps }

/-- A step with `rst` high (R240): no command is accepted, and the release is awaited. -/
def State.holdInReset (s : State) : State :=
  ({ s with rstHeld := true, answer := none, surf := [] } : State).advancePins

/-- The release of reset, in one action (R240, R26): `t0` is `now`, `CFG` is the record on `cfg_port`. The pins stay, so
a command presented with the release is taken at the next step (log 4). -/
def State.releaseReset (s : State) : State :=
  { State.resetAt s.params s.now s.cfgRead with pins := s.pins, script := s.script, draws := s.draws }

/-- A step with no command presented: nothing happens but the passing of time (R60). -/
def State.idle (s : State) : State :=
  ({ s with answer := none, surf := [] } : State).advancePins

/-- A command word whose opcode is reserved (R68): nothing is performed and the answer is BAD_OP. -/
def State.answerBadOp (s : State) : State := s.raise .badOp

end Machine

end Sys2Proof
end

