-- ==== Sys2Proof/Machine/Operands.lean ====
section
/-! DEFINITION. Operand forms and codes: the numeric codes of R13 and R211, bytes and lanes (R63, R80), the six Booleans
and the five categories as bit vectors (R13, R65), and the record of packet fields (R94, R97). -/

namespace Sys2Proof

/-- `status_of(v)` (R84): the map is total. -/
def StatusCode.ofBits (v : BitVec 2) : StatusCode :=
  match v.toNat with
  | 0 => .off
  | 1 => .on
  | 2 => .fault
  | _ => .sna

/-- The numeric code of a status code (R13). -/
def StatusCode.code : StatusCode → BitVec 2
  | .off => 0
  | .on => 1
  | .fault => 2
  | .sna => 3

/-- The numeric code of a category (R13). -/
def Category.code : Category → BitVec 3
  | .turn => 1
  | .charging => 2
  | .autopilot => 3
  | .track => 4
  | .plugged => 5

/-- The numeric code of a priority result: NONE is 0 (R13). -/
def prCode : PriorityResult → BitVec 3
  | none => 0
  | some c => c.code

/-- The numeric code of a mode (R13). -/
def Mode.code : Mode → BitVec 3
  | .booting => 0
  | .initTransport => 1
  | .waitLink => 2
  | .waitData => 3
  | .running => 4
  | .error => 5

/-- The numeric code of a result status (R211). -/
def Status.code : Status → BitVec 4
  | .ok => 0
  | .noPkt => 1
  | .badLen => 2
  | .badMagic => 3
  | .badVersion => 4
  | .badChecksum => 5
  | .badField => 6
  | .filtered => 7
  | .yield => 8
  | .badOp => 9

/-- The six Booleans of a 6-bit vector (R13). -/
def Bits6.ofBits (v : BitVec 6) : Bits6 :=
  { lt := v.getLsbD 0, rt := v.getLsbD 1, ap := v.getLsbD 2, ch := v.getLsbD 3, pl := v.getLsbD 4, tr := v.getLsbD 5 }

/-- The vector `{tr, pl, ch, ap, rt, lt}` (R14). -/
def Bits6.toBits (b : Bits6) : BitVec 6 :=
  placeBit 6 0 b.lt ||| placeBit 6 1 b.rt ||| placeBit 6 2 b.ap ||| placeBit 6 3 b.ch ||| placeBit 6 4 b.pl |||
    placeBit 6 5 b.tr

/-- The Booleans in the order of `bits6`. -/
def Bits6.toList (b : Bits6) : List Bool := [b.lt, b.rt, b.ap, b.ch, b.pl, b.tr]

/-- A 5-bit field of format Q: bit 0 is TURN, bit 4 is PLUGGED (R65). -/
def PerCategory.ofBits (v : BitVec 5) : PerCategory Bool :=
  { turn := v.getLsbD 0, charging := v.getLsbD 1, autopilot := v.getLsbD 2, track := v.getLsbD 3,
    plugged := v.getLsbD 4 }

/-- A colour of 24 bits, red in 23:16, green in 15:8, blue in 7:0 (R20, D15). -/
def Colour.ofBits (v : BitVec 24) : Colour :=
  { r := v.extractLsb' 16 8, g := v.extractLsb' 8 8, b := v.extractLsb' 0 8 }

/-- Byte lane `k` of twelve (R63): bits `8k+7:8k`. -/
def lane (b : BitVec 96) (k : Nat) : Byte := b.extractLsb' (8 * k) 8

/-- The twelve lanes, byte 0 first (R63). -/
def lanes (b : BitVec 96) : List Byte := (List.range 12).map (lane b)

/-- Bytes placed in lanes, byte 0 in lane 0, the lanes beyond them 0 (R63, R95). -/
def packLanes : List Byte → BitVec 96
  | [] => 0
  | x :: xs => place 96 0 x ||| (packLanes xs <<< 8)

/-- `be64(p)` (R80): byte 0 is the most significant of the eight. -/
def be64 (p : List Byte) : BitVec 64 := p.foldl (fun acc x => (acc <<< 8) ||| place 64 0 x) 0

/-- The packet length `PKT_LEN` (R3): 12 for format A (C1), 5 for format B. -/
def Params.pktLen (p : Params) : BitVec 4 :=
  match p.fmt with
  | .a => 12
  | .b => 5

/-- The width `SW` of the sequence counter (R3). -/
def Params.seqWidth (p : Params) : Nat :=
  match p.fmt with
  | .a => 16
  | .b => 32

/-- The record of packet fields (R94, R97). -/
structure PktFields where
  left : StatusCode
  right : StatusCode
  flags : Byte
  seq : BitVec 32
  clock : BitVec 32
  bits6 : Bits6
  deriving DecidableEq, Repr

/-- The record of a format E operand (R64, R95). -/
def PktFields.ofE (o : FormatE) : PktFields :=
  { left := .ofBits o.left, right := .ofBits o.right, flags := o.flags, seq := o.seq, clock := o.clock,
    bits6 := .ofBits o.bits6 }

/-- A record laid out as format E (R64, R98). -/
def PktFields.toE (f : PktFields) : FormatE :=
  { left := f.left.code, right := f.right.code, flags := f.flags, seq := f.seq, clock := f.clock,
    bits6 := f.bits6.toBits }

/-- Why a packet is rejected (R96, R97). -/
inductive PktReject where
  | badLen
  | badMagic
  | badVersion
  | badChecksum
  | badField
  deriving DecidableEq, Repr

/-- The result status of a rejection (R211). -/
def PktReject.status : PktReject → Status
  | .badLen => .badLen
  | .badMagic => .badMagic
  | .badVersion => .badVersion
  | .badChecksum => .badChecksum
  | .badField => .badField

end Sys2Proof
end

