-- ==== Sys2Proof/Machine/Flags.lean ====
section
/-! DEFINITION. The one-bit conditions of R23 that a rule computes: alive (R113), a packet's data being meaningful (R195),
the sequence comparison (R114), the frame gate (R171), and MODE as every rule reads it (R24, R190). The block has no
condition-code register. -/

namespace Sys2Proof.Machine

/-- `alive(t)` (R113): computed, never stored; the comparison is not strict. -/
def State.alive (s : State) (t : Time) : Bool :=
  s.lv.valid && decide (elapsed t s.lv.lastRx ≤ s.cfg.deadWindow)

/-- `meaningful(f)` (R195): under format A the data-seen flag, under format B always. -/
def meaningful (p : Params) (f : PktFields) : Bool :=
  match p.fmt with
  | .a => f.flags.getLsbD 0
  | .b => true

/-- `seq_delta(a, b) = (a - b) mod 2^SW` (R114), in 32 bits. -/
def seqDelta (p : Params) (a b : BitVec 32) : BitVec 32 :=
  BitVec.ofNat 32 ((a - b).toNat % 2 ^ p.seqWidth)

/-- `seq_newer(a, b)` (R114): ahead by less than half the range. -/
def seqNewer (p : Params) (a b : BitVec 32) : Bool :=
  decide (0 < (seqDelta p a b).toNat) && decide ((seqDelta p a b).toNat < 2 ^ (p.seqWidth - 1))

/-- The frame-period gate lets the tick advance (R171): exactly one period is enough. -/
def State.gateOpen (s : State) : Bool := decide (s.cfg.framePeriod ≤ elapsed s.now s.tf)

/-- `MODE` as a rule reads it: the constant RUNNING when `HAS_MODE_FSM = 0` (R24, R190). -/
def State.modeRead (s : State) : Mode := if s.params.hasModeFsm then s.mls.mode else .running

end Sys2Proof.Machine
end

