-- ==== Sys2Proof/Machine/Extractor.lean ====
section
/-! DEFINITION. The bit-field extractor and the signal decoder (40_extractor.md): BFX and SDEC. -/

namespace Sys2Proof.Machine

/-- `extract(p, start, width)` on the reassembly `be` (R81): the shift and the mask of the source. -/
def extract (be : BitVec 64) (start width : Nat) : BitVec 64 :=
  (be >>> (64 - start - width)) &&& BitVec.ofNat 64 (2 ^ width - 1)

/-- The precondition of `extract` (R81, R82). -/
def extractOk (start width : Nat) : Bool :=
  decide (1 ≤ width) && decide (width ≤ 64) && decide (start + width ≤ 64)

/-- BFX (R83): the extracted field, zero-extended. Outside the precondition the operation has no meaning (R82, U1). -/
def execBfx (o : FormatX) (s : State) : Host.Outcome State Fault Refusal :=
  if extractOk o.start.toNat o.width.toNat then
    .next (s.respond .ok ((extract o.payload o.start.toNat o.width.toNat).setWidth 128) [])
  else .refused .extractPrecondition

/-- The two status codes of a frame (R85). -/
structure SignalPair where
  left : StatusCode
  right : StatusCode
  deriving DecidableEq, Repr

/-- A two-bit status field at a fixed offset (R85). -/
def statusField (payload : BitVec 64) (off : Nat) : StatusCode :=
  .ofBits ((extract payload off 2).setWidth 2)

/-- `sdec(id, dlc, p)` (R85): `none` where the frame is filtered. -/
def signalDecode (p : Params) (o : FormatF) : Option SignalPair :=
  if o.id ≠ p.frameId ∨ o.dlc ≠ 8 then none
  else some { left := statusField o.payload p.leftOff, right := statusField o.payload p.rightOff }

/-- The result word of SDEC on a hit (R66, R86). -/
def sdecData (r : SignalPair) : ResData :=
  placeBit 128 0 true ||| place 128 1 r.left.code ||| place 128 3 r.right.code

/-- SDEC (R86): a filtered frame has no effect on anything. -/
def execSdec (o : FormatF) (s : State) : Host.Outcome State Fault Refusal :=
  match signalDecode s.params o with
  | none => .next (s.raise .filtered)
  | some r => .next (s.respond .ok (sdecData r) [])

end Sys2Proof.Machine
end

