-- ==== Sys2Proof/Machine/Codec.lean ====
section
/-! DEFINITION. The checksum validator and the packet codec (41_packet_codec.md): CSUM, PKENC and PKDEC; and the
pseudo-operation XMIT (R71). -/

namespace Sys2Proof.Machine

/-- The XOR of all bytes of a list. -/
def xorAll (b : List Byte) : Byte := b.foldr (· ^^^ ·) 0

/-- `xorsum(b, n)` (R90): the XOR of bytes 0 to `n - 1`. -/
def xorsum (b : List Byte) (n : Nat) : Byte := xorAll (b.take n)

/-- CSUM (R91): lanes at and beyond `len` are not read; `len` of 13 to 15 is BAD_OP (R68). -/
def execCsum (o : FormatP) (s : State) : Host.Outcome State Fault Refusal :=
  if 12 < o.len.toNat then .next (s.raise .badOp)
  else .next (s.respond .ok ((xorsum (lanes o.bytes) o.len.toNat).setWidth 128) [])

/-- Byte `k` of a 32-bit field, byte 0 the lowest. -/
def byteOf (v : BitVec 32) (k : Nat) : Byte := v.extractLsb' (8 * k) 8

/-- Bytes 0 to 10 of a format A packet (R92, R94). -/
def bodyA (p : Params) (f : PktFields) : List Byte :=
  [p.magic, p.version, f.left.code.setWidth 8, f.right.code.setWidth 8, f.flags,
   byteOf f.seq 0, byteOf f.seq 1,
   byteOf f.clock 0, byteOf f.clock 1, byteOf f.clock 2, byteOf f.clock 3]

/-- The four sequence bytes of format B: little-endian when `B_SEQ_LE` (R93, R94; the other order is log 9). -/
def seqBytesB (p : Params) (seq : BitVec 32) : List Byte :=
  if p.bSeqLe then [byteOf seq 0, byteOf seq 1, byteOf seq 2, byteOf seq 3]
  else [byteOf seq 3, byteOf seq 2, byteOf seq 1, byteOf seq 0]

/-- One flag of the state bitmask at its bit position. -/
def flagAt (k : Fin 8) (v : Bool) : Byte := placeBit 8 k.val v

/-- The state bitmask of format B: bit `B_BIT[k]` holds `bits6[k]`, the other bits are 0 (R93, R94). -/
def maskB (b : BBit) (x : Bits6) : Byte :=
  flagAt b.lt x.lt ||| flagAt b.rt x.rt ||| flagAt b.ap x.ap ||| flagAt b.ch x.ch ||| flagAt b.pl x.pl ||| flagAt b.tr x.tr

/-- `pkt_encode(f)` (R94). -/
def pktEncode (p : Params) (f : PktFields) : List Byte :=
  match p.fmt with
  | .a => bodyA p f ++ [xorsum (bodyA p f) 11]
  | .b => seqBytesB p f.seq ++ [maskB p.bBit f.bits6]

/-- The result word of PKENC (R66, R95): `PKT_LEN` in 99:96 above the lanes. -/
def pkencData (p : Params) (f : PktFields) : ResData :=
  place 128 0 (packLanes (pktEncode p f)) ||| place 128 96 p.pktLen

/-- PKENC (R95). -/
def execPkenc (o : FormatE) (s : State) : Host.Outcome State Fault Refusal :=
  .next (s.respond .ok (pkencData s.params (.ofE o)) [])

/-- The six Booleans of a format A packet (R97, D10): only ON is turning. -/
def bits6OfCodes (left right : StatusCode) : Bits6 :=
  { Bits6.zero with lt := decide (left = .on), rt := decide (right = .on) }

/-- A 32-bit value of four bytes, the lowest first. -/
def word32 (b0 b1 b2 b3 : Byte) : BitVec 32 := place 32 0 b0 ||| place 32 8 b1 ||| place 32 16 b2 ||| place 32 24 b3

/-- The fields of an accepted format A packet (R97). -/
def fieldsA (b : BitVec 96) : PktFields :=
  { left := .ofBits ((lane b 2).setWidth 2), right := .ofBits ((lane b 3).setWidth 2), flags := lane b 4,
    seq := word32 (lane b 5) (lane b 6) 0 0,
    clock := word32 (lane b 7) (lane b 8) (lane b 9) (lane b 10),
    bits6 := bits6OfCodes (.ofBits ((lane b 2).setWidth 2)) (.ofBits ((lane b 3).setWidth 2)) }

/-- Format A: length, magic, version, checksum, field range, in that order (R96, R97). -/
def pktDecodeA (p : Params) (b : BitVec 96) (len : BitVec 4) : Except PktReject PktFields :=
  if len ≠ 12 then .error .badLen
  else if lane b 0 ≠ p.magic then .error .badMagic
  else if lane b 1 ≠ p.version then .error .badVersion
  else if xorsum (lanes b) 11 ≠ lane b 11 then .error .badChecksum
  else if 3 < (lane b 2).toNat ∨ 3 < (lane b 3).toNat then .error .badField
  else .ok (fieldsA b)

/-- A turn Boolean as a status code, for the fields format B does not carry (R97, D10). -/
def codeOfTurn (v : Bool) : StatusCode := if v then .on else .off

/-- The six Booleans of a state bitmask (R97); the two bits no flag has are ignored. -/
def bits6OfMask (b : BBit) (m : Byte) : Bits6 :=
  { lt := m.getLsbD b.lt.val, rt := m.getLsbD b.rt.val, ap := m.getLsbD b.ap.val, ch := m.getLsbD b.ch.val,
    pl := m.getLsbD b.pl.val, tr := m.getLsbD b.tr.val }

/-- The sequence of a format B packet (R93, R97; the other order is log 9). -/
def seqB (p : Params) (b : BitVec 96) : BitVec 32 :=
  if p.bSeqLe then word32 (lane b 0) (lane b 1) (lane b 2) (lane b 3)
  else word32 (lane b 3) (lane b 2) (lane b 1) (lane b 0)

/-- The fields of a format B packet (R97). -/
def fieldsB (p : Params) (b : BitVec 96) : PktFields :=
  { left := codeOfTurn (bits6OfMask p.bBit (lane b 4)).lt, right := codeOfTurn (bits6OfMask p.bBit (lane b 4)).rt,
    flags := 0, seq := seqB p b, clock := 0, bits6 := bits6OfMask p.bBit (lane b 4) }

/-- Format B: the length and nothing more (R97, C5). -/
def pktDecodeB (p : Params) (b : BitVec 96) (len : BitVec 4) : Except PktReject PktFields :=
  if len ≠ 5 then .error .badLen else .ok (fieldsB p b)

/-- `pkt_decode(b, len)` (R97). -/
def pktDecode (p : Params) (b : BitVec 96) (len : BitVec 4) : Except PktReject PktFields :=
  match p.fmt with
  | .a => pktDecodeA p b len
  | .b => pktDecodeB p b len

/-- The result word of PKDEC (R66, R98): format E. -/
def pkdecData (f : PktFields) : ResData := place 128 0 (layoutE f.toE)

/-- PKDEC (R98): the decoder alone; no state is written, whatever the status. -/
def execPkdec (o : FormatP) (s : State) : Host.Outcome State Fault Refusal :=
  match pktDecode s.params o.bytes o.len with
  | .error r => .next (s.raise r.status)
  | .ok f => .next (s.respond .ok (pkdecData f) [])

/-- The RX operand of the pseudo-operation XMIT: the bytes PKENC gives, `len = PKT_LEN`, no sample (R71). -/
def xmitPacket (p : Params) (o : FormatE) : FormatP :=
  { bytes := packLanes (pktEncode p (.ofE o)), len := p.pktLen, qv := false, q := 0 }

/-- `@t XMIT …` (R71) as the two settings of the pins it expands to: PKENC, then RX of its result. -/
def xmit (p : Params) (o : FormatE) (t : Time) (c : CfgRec) : List Pins :=
  [{ rst := false, cmdValid := true, cmd := encode (.pkenc o), now := t, cfgPort := c },
   { rst := false, cmdValid := true, cmd := encode (.rx (xmitPacket p o)), now := t, cfgPort := c }]

end Sys2Proof.Machine
end

