-- ==== Sys2Proof/Machine/ModeFsm.lean ====
section
/-! DEFINITION. The mode lifecycle state machine (47_mode_lifecycle.md): TINIT, and its sub-steps of POLL and TICK. With
`HAS_MODE_FSM = 0` none of them does anything (R190). -/

namespace Sys2Proof.Machine

/-- `mode_on_packet` on the mode registers (R193): the last line reads the mode the one before wrote. -/
def ModeRegs.onPacket (m : Bool) (rxTime : Time) (r : ModeRegs) : ModeRegs :=
  let r1 : ModeRegs := if m then { r with dataT := rxTime, dataV := true } else r
  let r2 : ModeRegs := if r1.mode = .waitLink then { r1 with mode := .waitData } else r1
  if r2.mode = .waitData ∧ m = true then { r2 with mode := .running } else r2

/-- `mode_on_packet(f, snap)` (R193). -/
def State.modeOnPacket (s : State) (f : PktFields) (snap : Mailbox) : State :=
  if s.params.hasModeFsm then { s with mls := s.mls.onPacket (meaningful s.params f) snap.rxTime } else s

/-- The link is silent (R194). -/
def linkSilent (now : Time) (lv : LivenessRecord) (cfg : CfgRec) : Bool :=
  !lv.valid || decide (cfg.linkTimeout < elapsed now lv.lastRx)

/-- The data is stale (R194). -/
def ModeRegs.stale (now : Time) (cfg : CfgRec) (r : ModeRegs) : Bool :=
  !r.dataV || decide (cfg.dataTimeout < elapsed now r.dataT)

/-- The mode after `mode_on_tick(now)` (R194, R196): at most one transition, silence tested first. -/
def ModeRegs.tickMode (now : Time) (lv : LivenessRecord) (cfg : CfgRec) (r : ModeRegs) : Mode :=
  match r.mode with
  | .error => .error
  | .initTransport => .initTransport
  | .booting => if cfg.bootTime ≤ elapsed now r.modeT then .initTransport else .booting
  | .waitLink => .waitLink
  | .waitData => if linkSilent now lv cfg then .waitLink else .waitData
  | .running =>
      if linkSilent now lv cfg then .waitLink
      else if r.stale now cfg then .waitData
      else .running

/-- `mode_on_tick(now)` (R194). -/
def State.modeOnTick (s : State) : State :=
  if s.params.hasModeFsm then { s with mls := { s.mls with mode := s.mls.tickMode s.now s.lv s.cfg } } else s

/-- The effect of TINIT on the mode registers (R192). -/
def State.reportTransport (s : State) (ok : Bool) : State :=
  if s.params.hasModeFsm = true ∧ s.mls.mode = .initTransport then
    { s with mls := { s.mls with mode := if ok then .waitLink else .error } }
  else s

/-- TINIT (R192): in any mode other than INIT_TRANSPORT, and without the state machine, it changes nothing. -/
def execTinit (o : FormatI) (s : State) : Host.Outcome State Fault Refusal :=
  .next ((s.reportTransport o.ok).respond .ok 0 [])

end Sys2Proof.Machine
end

