-- ==== Sys2Proof/Machine/Link.lean ====
section
/-! DEFINITION. Mailbox receive, liveness and sequence tracker (42_liveness.md): RX and POLL, and the packet sub-step that
POLL and TICK share. -/

namespace Sys2Proof.Machine

/-- RX (R110): the notification copies the packet into the mailbox and does nothing else. -/
def execRx (o : FormatP) (s : State) : Host.Outcome State Fault Refusal :=
  .next ((s.mbPublish o.bytes o.len s.now o.qv o.q).respond .ok 0 [])

/-- `apply(f, snap)` (R112): every field of `VS` and of `LV` is overwritten from this one packet. -/
def State.applyPacket (s : State) (f : PktFields) (snap : Mailbox) : State :=
  { s with
    vs := { bits6 := f.bits6, ls := f.left, rs := f.right, flags := f.flags }
    lv := { valid := true, lastRx := snap.rxTime, lastSeq := f.seq, qValid := snap.qValid, q := snap.q,
            senderClock := f.clock } }

/-- The result word of an accepting POLL (R66, R111), from the liveness record before the apply. -/
def pollData (p : Params) (f : PktFields) (old : LivenessRecord) : ResData :=
  placeBit 128 0 old.valid ||| placeBit 128 1 (old.valid && seqNewer p f.seq old.lastSeq) |||
    place 128 2 (seqDelta p f.seq old.lastSeq)

/-- The outcome of the packet sub-step: the status POLL returns, its result data, and the state after its effects. -/
structure PacketOutcome where
  status : Status
  data : ResData
  post : State

/-- The packet sub-step (R111, R170 sub-step 1): take, validate, apply. -/
def State.packetStep (s : State) : PacketOutcome :=
  if s.mb.fresh then
    match pktDecode s.params s.mb.data s.mb.len with
    | .error r => { status := r.status, data := 0, post := { s.mbTake with rxstat := r.status } }
    | .ok f =>
        { status := .ok
          data := pollData s.params f s.lv
          post := (({ s.mbTake with rxstat := .ok } : State).applyPacket f s.mb).modeOnPacket f s.mb }
  else { status := .noPkt, data := 0, post := s.mbTake }

/-- POLL (R111). -/
def execPoll (s : State) : Host.Outcome State Fault Refusal :=
  .next (s.packetStep.post.respond s.packetStep.status s.packetStep.data [])

/-- Link loss (R117): while the link is not alive `VS` is the safe default; `LV` is not touched. -/
def State.linkLoss (s : State) : State :=
  if s.alive s.now then s else { s with vs := .zero }

end Sys2Proof.Machine
end

