-- ==== Sys2Proof/Machine/Debounce.lean ====
section
/-! DEFINITION. The turn-signal debounce state machine (43_debounce.md), a sub-step of an advancing tick. -/

namespace Sys2Proof.Machine

/-- The six Booleans the raw samples are taken from (R132): the override's when the test flag is set. -/
def State.eff6 (s : State) : Bits6 := if s.ovr.en then s.ovr.bits6 else s.vs.bits6

/-- The raw turn sample of a side (R132). -/
def State.sample (s : State) : Side → Bool
  | .left => s.eff6.lt
  | .right => s.eff6.rt

/-- `debounce_step(d, sample, t)` (R130): the release is strict, at exactly `HOLD` elapsed the side is still active. -/
def debounceStep (hold : BitVec 32) (d : DebounceRec) (sample : Bool) (t : Time) : DebounceRec :=
  if sample then { active := true, lastTrue := t }
  else if d.active = true ∧ hold < elapsed t d.lastTrue then { active := false, lastTrue := d.lastTrue }
  else d

/-- The debounce sub-step for both sides (R130, R172). -/
def State.debounceBoth (s : State) : State :=
  { s with
    db := { left := debounceStep s.cfg.hold s.db.left (s.sample .left) s.now
            right := debounceStep s.cfg.hold s.db.right (s.sample .right) s.now } }

end Sys2Proof.Machine
end

