-- ==== Sys2Proof/Machine/Arbiter.lean ====
section
/-! DEFINITION. The priority encoder (44_arbiter.md): ARB, and the arbitration sub-step of an advancing tick. -/

namespace Sys2Proof.Machine

/-- `arbitrate(alerts, en, cond)` (R140). -/
def arbitrate (alerts : Bool) (en cond : PerCategory Bool) : PriorityResult :=
  if !alerts then none
  else if cond.turn && en.turn then some .turn
  else if cond.charging && en.charging then some .charging
  else if cond.autopilot && en.autopilot then some .autopilot
  else if cond.track && en.track then some .track
  else if cond.plugged && en.plugged then some .plugged
  else none

/-- ARB (R141): the operands replace `CFG`, `DB` and `VS`. -/
def execArb (o : FormatQ) (s : State) : Host.Outcome State Fault Refusal :=
  .next (s.respond .ok ((prCode (arbitrate o.alerts (.ofBits o.en) (.ofBits o.cond))).setWidth 128) [])

/-- The conditions of a side (R143): the turn condition debounced, the four others raw (R132). -/
def State.conditions (s : State) (side : Side) : PerCategory Bool :=
  { turn := (s.db.get side).active, charging := s.eff6.ch, autopilot := s.eff6.ap, track := s.eff6.tr,
    plugged := s.eff6.pl }

/-- `PR[s]` (R143), on the state the debounce sub-step left; it is not state (R25). -/
def State.priority (s : State) (side : Side) : PriorityResult :=
  arbitrate s.cfg.alertsEn s.cfg.en (s.conditions side)

end Sys2Proof.Machine
end

