-- ==== Sys2Proof/Machine/Renderer.lean ====
section
/-! DEFINITION. The animation frame renderer (45_renderer.md) and the diagnostic frames of the other modes (R198), the last
sub-step of an advancing tick. -/

namespace Sys2Proof.Machine

/-- `PULSE8(r, P)` (R153): pinned at the four quarter points, free everywhere else (U8, log 5), and free for `P = 0`, which
R21 rules out (log 12). -/
def pulse8 (r P : Nat) : Byte :=
  if P = 0 then Config.pulse8Free r P
  else if r = 0 then 128
  else if 4 * r = P then 255
  else if 2 * r = P then 128
  else if 4 * r = 3 * P then 0
  else Config.pulse8Free r P

/-- `B8` (R152) from the two configuration bytes and a pulse value. Under R21 the sum does not exceed 255 (log 12). -/
def brightness (baseline range pulse : Byte) : Byte :=
  BitVec.ofNat 8 (baseline.toNat + range.toNat * pulse.toNat / 255)

/-- `B8(c, t)` (R152). -/
def b8 (cfg : CfgRec) (c : Category) (t : Time) : Byte :=
  brightness cfg.baseline cfg.range (pulse8 (t.toNat % (cfg.period.get c).toNat) (cfg.period.get c).toNat)

/-- One channel scaled and rounded down (R154). -/
def scaleChannel (x b : Byte) : Byte := BitVec.ofNat 8 (x.toNat * b.toNat / 255)

/-- `scale(col, B)` (R154). -/
def scale (col : Colour) (b : Byte) : Colour :=
  { r := scaleChannel col.r b, g := scaleChannel col.g b, b := scaleChannel col.b b }

/-- The length of the tail region of a strip, clamped to the strip (R155). -/
def tailLen (cfg : CfgRec) (side : Side) : Nat := min (cfg.tail.get side).toNat (cfg.len.get side).toNat

/-- The colour of position `i` of a strip (R155): it depends on no other position (R159). -/
def positionColour (cfg : CfgRec) (side : Side) (pr : PriorityResult) (t : Time) (i : Nat) : Colour :=
  match pr with
  | none => cfg.colAmbient
  | some c =>
      if i < (cfg.len.get side).toNat - tailLen cfg side then cfg.colAmbient
      else scale (cfg.col.get c) (b8 cfg c t)

/-- `render_strip(s, pr, t)` (R155). -/
def renderStrip (cfg : CfgRec) (side : Side) (pr : PriorityResult) (t : Time) : List Colour :=
  (List.range (cfg.len.get side).toNat).map (positionColour cfg side pr t)

/-- The writes of one strip in increasing order of position, from position `i` on (R158). -/
def stripWrites (side : Side) : Nat → List Colour → List SurfEvent
  | _, [] => []
  | i, c :: cs => .surfWrite side i c :: stripWrites side (i + 1) cs

/-- The events of one strip: its writes, then its show (R158). -/
def emitStrip (side : Side) (frame : List Colour) : List SurfEvent :=
  stripWrites side 0 frame ++ [.surfShow side]

/-- A diagnostic frame of `n` positions from draw number `k` on: any colours (R198, U7, log 6). -/
def diagnosticFrame (k n : Nat) : List Colour := (List.range n).map fun i => .ofBits (Config.freeColour (k + i))

/-- How many colours a tick draws: one a position when `MODE` is not RUNNING, none otherwise (R198, U7). -/
def State.drawsOfTick (s : State) : Nat :=
  if s.modeRead = .running then 0 else s.cfg.len.left.toNat + s.cfg.len.right.toNat

/-- The events of an advancing tick (R158, R198): the left strip, then the right one. -/
def State.frameEvents (s : State) : List SurfEvent :=
  if s.modeRead = .running then
    emitStrip .left (renderStrip s.cfg .left (s.priority .left) s.now) ++
      emitStrip .right (renderStrip s.cfg .right (s.priority .right) s.now)
  else
    emitStrip .left (diagnosticFrame s.draws s.cfg.len.left.toNat) ++
      emitStrip .right (diagnosticFrame (s.draws + s.cfg.len.left.toNat) s.cfg.len.right.toNat)

end Sys2Proof.Machine
end

