-- ==== Sys2Proof/Machine/System.lean ====
section
/-! DEFINITION. The render tick and the system operations (46_tick_and_system.md): TICK, RECONF, OVRD and STAT. -/

namespace Sys2Proof.Machine

/-- The result word of a yielding TICK (R66, R170): only the packet status is set. -/
def yieldData (pst : Status) : ResData := place 128 10 pst.code

/-- Sub-steps 2 to 6 of an advancing tick (R172): the frame timer, the mode timers, link loss, the debouncers. -/
def State.tickState (s : State) : State :=
  ({ s with tf := s.now } : State).modeOnTick.linkLoss.debounceBoth

/-- The result word of an advancing TICK (R66, R170), on the state sub-step 6 left. -/
def tickData (s : State) (pst : Status) : ResData :=
  place 128 0 (prCode (s.priority .left)) ||| place 128 3 (prCode (s.priority .right)) |||
    placeBit 128 6 (s.alive s.now) ||| place 128 7 s.modeRead.code ||| place 128 10 pst.code

/-- Sub-steps 7 and 8 and the answer of an advancing tick (R170, R172). -/
def State.emitFrame (s : State) (pst : Status) : State :=
  { s.respond .ok (tickData s pst) s.frameEvents with draws := s.draws + s.drawsOfTick }

/-- The gate and what follows it, on the state the packet sub-step left (R170, R171). -/
def State.afterPacket (s : State) (pst : Status) : State :=
  if s.gateOpen then s.tickState.emitFrame pst else s.respond .yield (yieldData pst) []

/-- TICK (R170). -/
def execTick (s : State) : Host.Outcome State Fault Refusal :=
  .next (s.packetStep.post.afterPacket s.packetStep.status)

/-- RECONF (R173): the whole record, or no meaning where it breaks R21 (U5). -/
def execReconf (s : State) : Host.Outcome State Fault Refusal :=
  if s.cfgRead.legal s.params.maxLen then
    .next (({ s with cfg := s.cfgRead } : State).respond .ok 0 [surfConfigOf s.cfgRead])
  else .refused .illegalConfig

/-- OVRD (R174). -/
def execOvrd (o : FormatV) (s : State) : Host.Outcome State Fault Refusal :=
  .next (({ s with ovr := { en := o.en, bits6 := .ofBits o.bits6 } } : State).respond .ok 0 [])

/-- The status snapshot (R175), field by field. -/
def statData (s : State) : ResData :=
  place 128 0 s.vs.bits6.toBits ||| place 128 6 s.vs.ls.code ||| place 128 8 s.vs.rs.code |||
    place 128 10 s.vs.flags ||| placeBit 128 18 s.lv.valid ||| place 128 19 (elapsed s.now s.lv.lastRx) |||
    placeBit 128 51 (s.alive s.now) ||| place 128 52 s.lv.lastSeq ||| placeBit 128 84 s.lv.qValid |||
    place 128 85 s.lv.q ||| place 128 93 s.rxstat.code ||| place 128 97 s.modeRead.code |||
    placeBit 128 100 s.ovr.en ||| place 128 101 s.ovr.bits6.toBits ||| placeBit 128 107 s.db.left.active |||
    placeBit 128 108 s.db.right.active ||| placeBit 128 109 s.mb.fresh

/-- STAT (R175): a pure read-only snapshot; the mailbox is not taken. -/
def execStat (s : State) : Host.Outcome State Fault Refusal :=
  .next { s with answer := some { status := .ok, data := statData s, statCfg := some s.cfg }, surf := [] }

end Sys2Proof.Machine
end

