-- ==== Sys2Proof/Machine/Dispatch.lean ====
section
/-! DEFINITION. One arm per constructor of Instr, each one direct call of its meaning. -/

namespace Sys2Proof.Machine

def exec (i : Instr) (s : State) : Host.Outcome State Fault Refusal :=
  match i with
  | .bfx o => Sys2Proof.Machine.execBfx o s
  | .sdec o => Sys2Proof.Machine.execSdec o s
  | .csum o => Sys2Proof.Machine.execCsum o s
  | .pkenc o => Sys2Proof.Machine.execPkenc o s
  | .pkdec o => Sys2Proof.Machine.execPkdec o s
  | .rx o => Sys2Proof.Machine.execRx o s
  | .poll => Sys2Proof.Machine.execPoll s
  | .tick => Sys2Proof.Machine.execTick s
  | .reconf => Sys2Proof.Machine.execReconf s
  | .ovrd o => Sys2Proof.Machine.execOvrd o s
  | .stat => Sys2Proof.Machine.execStat s
  | .tinit o => Sys2Proof.Machine.execTinit o s
  | .arb o => Sys2Proof.Machine.execArb o s

end Sys2Proof.Machine
end

