-- ==== Sys2Proof/Machine/Step.lean ====
section
/-! DEFINITION. One step of the block: reset, or the command on the command port, or nothing (R60, R240); then the
environment's next setting of the pins. -/

namespace Sys2Proof.Machine

/-- The command on the port: the decoded operation, or BAD_OP for a reserved opcode (R67, R68). -/
def runCommand (s : State) : Host.Outcome State Fault Refusal :=
  match decode s.pins.cmd with
  | .error _ => .next s.answerBadOp
  | .ok i => exec i s

/-- One step. -/
def step (s : State) : Host.Outcome State Fault Refusal :=
  if s.pins.rst then .next s.holdInReset
  else if s.rstHeld then
    if s.cfgRead.legal s.params.maxLen then .next s.releaseReset else .refused .illegalConfig
  else if s.pins.cmdValid then
    match runCommand s with
    | .next t => .next t.advancePins
    | .fault f => .fault f
    | .refused r => .refused r
  else .next s.idle

/-- The state with the command word presented on the command port, so that the next step performs it (log 3). -/
def State.withFetchWord (s : State) (nbits w : Nat) : State :=
  { s with
    pins := { s.pins with rst := false, cmdValid := true, cmd := tableWord nbits w }
    rstHeld := false }

end Sys2Proof.Machine
end

