-- ==== Sys2Proof/Safety.lean ====
section
/-! DEFINITION. What a safe run of the block is, in the terms the statements use: the two execution contexts (R230), the
environment's guarantees on time (R222), the design constraints R22, and the invariant of the machine. -/

namespace Sys2Proof

/-- The two execution contexts (R230). -/
inductive Context where
  | notification
  | main
  deriving DecidableEq, Repr

/-- The context that issues an operation (R230): RX and nothing else from the notification context. -/
def Instr.context : Instr → Context
  | .rx _ => .notification
  | .bfx _ => .main
  | .sdec _ => .main
  | .csum _ => .main
  | .pkenc _ => .main
  | .pkdec _ => .main
  | .poll => .main
  | .tick => .main
  | .reconf => .main
  | .ovrd _ => .main
  | .stat => .main
  | .tinit _ => .main
  | .arb _ => .main

/-- The design constraints R22 that can be checked on a record, for an expected gap between packets and a number of
heartbeats the dead window is to cover. The block does not check them and no definition of the machine reads them. -/
def CfgRec.meetsDesign (packetGap heartbeats : Nat) (c : CfgRec) : Bool :=
  decide (c.period.turn < c.period.charging) && decide (c.period.turn < c.period.autopilot) &&
  decide (c.period.turn < c.period.track) && decide (c.period.turn < c.period.plugged) &&
  decide (2 * c.hold.toNat < c.period.turn.toNat) && decide (packetGap < c.hold.toNat) &&
  decide (heartbeats * c.heartbeat.toNat ≤ c.deadWindow.toNat) && decide (c.dataTimeout < c.linkTimeout)

namespace Machine

/-- Two settings of the pins keep R222 (b) and (c): time goes forward, by less than half the counter's range. -/
def Pins.inTime (p q : Pins) : Bool := decide ((elapsed q.now p.now).toNat < 2 ^ 31)

/-- The environment keeps R222 from a setting of the pins through the ones that follow. -/
def timeKept : Pins → List Pins → Bool
  | _, [] => true
  | p, q :: qs => p.inTime q && timeKept q qs

/-- A command is presented and the block takes it at this step (R60, R240). -/
def State.commandTaken (s : State) : Bool := !s.pins.rst && !s.rstHeld && s.pins.cmdValid

/-- The values `RXSTAT` can hold (R19). -/
def Status.isReceive : Status → Bool
  | .ok => true
  | .noPkt => true
  | .badLen => true
  | .badMagic => true
  | .badVersion => true
  | .badChecksum => true
  | .badField => true
  | .filtered => false
  | .yield => false
  | .badOp => false

/-- What the vehicle state can hold under a wire format (R97, R112): under format A the four status Booleans are false and
a turn Boolean says that its code is ON; under format B the codes follow the turn Booleans and the flags are 0. -/
def VehicleState.fits (fmt : PktFmt) (v : VehicleState) : Prop :=
  match fmt with
  | .a => v.bits6 = bits6OfCodes v.ls v.rs
  | .b => v.ls = codeOfTurn v.bits6.lt ∧ v.rs = codeOfTurn v.bits6.rt ∧ v.flags = 0

/-- What the liveness record can hold under a wire format (R15): a zero-extended 16-bit sequence under format A, no sender
clock under format B. -/
def LivenessRecord.fits (fmt : PktFmt) (l : LivenessRecord) : Prop :=
  match fmt with
  | .a => l.lastSeq.toNat < 2 ^ 16
  | .b => l.senderClock = 0

/-- The invariant of the machine. -/
structure MachineInv (s : State) : Prop where
  /-- The active configuration keeps R21. -/
  cfgLegal : s.cfg.legal s.params.maxLen = true
  /-- `RXSTAT` holds a receive status (R19). -/
  rxstatReceive : Status.isReceive s.rxstat = true
  /-- `VS` fits the wire format. -/
  vsFits : s.vs.fits s.params.fmt
  /-- `LV` fits the wire format. -/
  lvFits : s.lv.fits s.params.fmt
  /-- Before the first accepted packet `VS` and `LV` hold their reset values (R26, R112). -/
  beforeFirstPacket : s.lv.valid = false → s.vs = .zero ∧ s.lv = .zero
  /-- With the state machine, the modes after the first valid packet are reached only by one (R191). -/
  modeNeedsPacket : s.params.hasModeFsm = true → s.mls.mode = .waitData ∨ s.mls.mode = .running → s.lv.valid = true
  /-- With the state machine, RUNNING is reached only by meaningful data (R191, R193). -/
  runningNeedsData : s.params.hasModeFsm = true → s.mls.mode = .running → s.mls.dataV = true
  /-- `DATA_V` is set only by an accepted packet (R24). -/
  dataNeedsPacket : s.params.hasModeFsm = true → s.mls.dataV = true → s.lv.valid = true

end Machine

end Sys2Proof
end

