-- ==== Sys2Proof/Certificates/Slice0/Obligations.lean ====
section
/-! DEFINITION. The statements for the provers. Each docstring names the rule of spec/ it formalises; where a clause rests
on a decision of 92_eei_decisions.md (D<n>) or on an entry of the model's log, it says so. -/

open Sys2Proof Sys2Proof.Machine

/-! ### The command word and the step -/

/-- R61 to R65, R67 (D2): decoding the command word of any operation gives the operation back, with every operand. -/
def Obligations.DecodeOfEncodeGivesTheOperation : Prop :=
  ∀ i : Instr, decode (encode i) = .ok i

/-- R61 (D2): `cmd[127:124]` is the opcode, the assigned bits of a decoded word are the encoder's, and a word that differs
only in reserved bits decodes to the same operation. -/
def Obligations.ReservedBitsAreIgnored : Prop :=
  ∀ (w : CmdWord) (i : Instr), decode w = .ok i →
    w.extractLsb' 124 4 = i.opcode ∧ encode i = w &&& i.assignedBits ∧
    ∀ w' : CmdWord, w' &&& i.assignedBits = w &&& i.assignedBits → decode w' = .ok i

/-- R68 (D23): exactly the opcodes 0x0, 0xE and 0xF are no operation; they, and a CSUM whose `len` is 13 to 15, write
nothing, emit nothing and answer BAD_OP with `res_data` 0. -/
def Obligations.IllegalEncodingsAnswerBadOp : Prop :=
  (∀ w : CmdWord, (∃ r, decode w = .error r) ↔
    (w.extractLsb' 124 4 = 0x0 ∨ w.extractLsb' 124 4 = 0xE ∨ w.extractLsb' 124 4 = 0xF)) ∧
  ∀ s : State, s.pins.rst = false → s.rstHeld = false → s.pins.cmdValid = true →
    ((∃ r, decode s.pins.cmd = .error r) ∨ ∃ o, decode s.pins.cmd = .ok (.csum o) ∧ 12 < o.len.toNat) →
    step s = .next
      ({ s with answer := some { status := .badOp, data := 0, statCfg := none }, surf := [] } : State).advancePins

/-- R60 (D2), log 3: a step that takes a command runs exec of the decoded operation at this very state and then shows the
environment's next setting of the pins; a setting is the head of the script, or, from an empty script, no command. -/
def Obligations.StepRunsTheDecodedOperation : Prop :=
  (∀ (s : State) (i : Instr), s.pins.rst = false → s.rstHeld = false → s.pins.cmdValid = true →
    decode s.pins.cmd = .ok i →
    (∀ t, exec i s = .next t → step s = .next t.advancePins) ∧
    (∀ r, exec i s = .refused r → step s = .refused r) ∧ (∀ f, exec i s ≠ .fault f)) ∧
  (∀ (t : State) (p : Pins) (ps : List Pins), t.script = p :: ps →
    t.advancePins = { t with pins := p, script := ps }) ∧
  (∀ t : State, t.script = [] →
    t.advancePins = { t with pins := { t.pins with rst := false, cmdValid := false } })

/-- Command words written out in 95_test_vectors.md decode to the operations they stand for, one a family. -/
def Obligations.CommandWordsOfTheSpecDecode : Prop :=
  decode 0x10000000000000B20000000000001000 = .ok (.bfx ⟨0x1000, 50, 2⟩) ∧
  decode 0x20000000000043F50000000000001000 = .ok (.sdec ⟨0x1000, 0x3F5, 8⟩) ∧
  decode 0x3000000B0011223344010201000101A5 = .ok (.csum ⟨0x0011223344010201000101A5, 11, false, 0⟩) ∧
  decode 0x40000000000001122334400000102011 = .ok (.pkenc ⟨1, 0, 0x01, 0x0102, 0x11223344, 0⟩) ∧
  decode 0x6000189CE311223344010201000101A5 = .ok (.rx ⟨0xE311223344010201000101A5, 12, true, 0xC4⟩) ∧
  decode 0x80000000000000000000000000000000 = .ok .tick ∧
  decode 0xA0000000000000000000000000000058 = .ok (.ovrd ⟨0b011000, true⟩) ∧
  decode 0xC0000000000000000000000000000001 = .ok (.tinit ⟨true⟩) ∧
  decode 0xD00000000000000000000000000007C3 = .ok (.arb ⟨0b00011, 0b11110, true⟩)

/-- R60: a step with no command presented changes no register; the answer and the surface show that none was performed
(log 8). -/
def Obligations.NoCommandChangesNothing : Prop :=
  ∀ s : State, s.pins.rst = false → s.rstHeld = false → s.pins.cmdValid = false →
    step s = .next ({ s with answer := none, surf := [] } : State).advancePins

/-- R210, R214, R69, R82, U1, R21, U5: no step ends in a fault, and the only refusals are a BFX outside the extractor's
precondition and a configuration record that breaks R21 at RECONF or at the release of reset. -/
def Obligations.OnlyUndefinedCasesStop : Prop :=
  ∀ s : State, (∀ f, step s ≠ .fault f) ∧
    ∀ r, step s = .refused r ↔
      (s.pins.rst = false ∧ s.rstHeld = false ∧ s.pins.cmdValid = true ∧ r = .extractPrecondition ∧
        ∃ o, decode s.pins.cmd = .ok (.bfx o) ∧
          (o.width.toNat = 0 ∨ 64 < o.width.toNat ∨ 64 < o.start.toNat + o.width.toNat)) ∨
      (s.pins.rst = false ∧ r = .illegalConfig ∧ s.pins.cfgPort.legal s.params.maxLen = false ∧
        (s.rstHeld = true ∨ s.pins.cmdValid = true ∧ decode s.pins.cmd = .ok .reconf))

/-! ### Reset and the invariant -/

/-- R240: while `rst` is high no command is accepted and no register changes (log 4: the registers take their reset values
at the release). -/
def Obligations.HeldInResetAcceptsNoCommand : Prop :=
  ∀ s : State, s.pins.rst = true →
    step s = .next ({ s with rstHeld := true, answer := none, surf := [] } : State).advancePins

/-- R240, R26 (D19): the release of reset, at `t0 = now`, gives every register the value of the table and emits
SURF_CONFIG; the pins stay, so that a command presented with it is taken next (log 4). -/
def Obligations.ReleaseOfResetSetsEveryRegister : Prop :=
  ∀ s : State, s.pins.rst = false → s.rstHeld = true → s.pins.cfgPort.legal s.params.maxLen = true →
    step s = .next
      { params := s.params
        vs := { bits6 := ⟨false, false, false, false, false, false⟩, ls := .off, rs := .off, flags := 0 }
        lv := { valid := false, lastRx := 0, lastSeq := 0, qValid := false, q := 0, senderClock := 0 }
        db := { left := { active := false, lastTrue := 0 }, right := { active := false, lastTrue := 0 } }
        tf := s.pins.now
        mb := { fresh := false, len := 0, data := 0, rxTime := 0, qValid := false, q := 0 }
        ovr := { en := false, bits6 := ⟨false, false, false, false, false, false⟩ }
        rxstat := .noPkt
        cfg := s.pins.cfgPort
        mls := { mode := .booting, modeT := s.pins.now, dataT := 0, dataV := false }
        pins := s.pins
        rstHeld := false
        script := s.script
        answer := none
        surf := [.surfConfig s.pins.cfgPort.len.left s.pins.cfgPort.len.right s.pins.cfgPort.gbright]
        draws := s.draws }

/-- The state of R26 meets the invariant, for every parameters, time and legal record; State.reset among them (log 2). -/
def Obligations.ResetStateMeetsTheInvariant : Prop :=
  (∀ (p : Params) (t0 : Time) (c : CfgRec), c.legal p.maxLen = true → MachineInv (State.resetAt p t0 c)) ∧ MachineInv State.reset

/-- From every state that meets the invariant a step gives a state that meets it. -/
def Obligations.EveryStepKeepsTheInvariant : Prop :=
  ∀ s t : State, MachineInv s → step s = .next t → MachineInv t

/-- R3: a parameter is fixed for a whole run; no step, reset included, writes one (log 1). -/
def Obligations.ParametersAreFixedForARun : Prop :=
  ∀ (n : Nat) (s t : State), Host.Core.run Sys2Proof.core n s = .next t → t.params = s.params

/-- R27: each register is written by no operation outside its row of the ownership table, POLL and TICK clear only the
freshness marker of `MB`, and the notification context issues RX alone. -/
def Obligations.RegistersAreWrittenByTheirOwners : Prop :=
  ∀ (i : Instr) (s t : State), exec i s = .next t →
    (t.mb ≠ s.mb → (∃ o, i = .rx o) ∨ ((i = .poll ∨ i = .tick) ∧ t.mb = { s.mb with fresh := false })) ∧
    (t.vs ≠ s.vs → i = .poll ∨ i = .tick) ∧
    (t.lv ≠ s.lv → i = .poll ∨ i = .tick) ∧
    (t.rxstat ≠ s.rxstat → i = .poll ∨ i = .tick) ∧
    (t.db ≠ s.db → i = .tick) ∧
    (t.tf ≠ s.tf → i = .tick) ∧
    (t.ovr ≠ s.ovr → ∃ o, i = .ovrd o) ∧
    (t.cfg ≠ s.cfg → i = .reconf) ∧
    (t.mls ≠ s.mls → i = .poll ∨ i = .tick ∨ ∃ o, i = .tinit o) ∧
    (t.draws ≠ s.draws → i = .tick) ∧
    t.params = s.params ∧ t.pins = s.pins ∧ t.script = s.script ∧ t.rstHeld = s.rstHeld ∧
    (i.context = .notification ↔ ∃ o, i = .rx o)

/-! ### Extractor and signal decoder -/

/-- R81, R83: inside its precondition BFX answers OK with the `width` bits from `start` on, right-aligned and
zero-extended, and changes nothing else. -/
def Obligations.BfxReturnsTheBitField : Prop :=
  ∀ (s : State) (o : FormatX), 1 ≤ o.width.toNat → o.width.toNat ≤ 64 → o.start.toNat + o.width.toNat ≤ 64 →
    ∃ d : ResData,
      exec (.bfx o) s = .next { s with answer := some { status := .ok, data := d, statCfg := none }, surf := [] } ∧
      (∀ j, d.getLsbD j =
        (decide (j < o.width.toNat) && o.payload.getLsbD (64 - o.start.toNat - o.width.toNat + j))) ∧
      d.toNat = o.payload.toNat / 2 ^ (64 - o.start.toNat - o.width.toNat) % 2 ^ o.width.toNat

/-- R82 (U1): outside its precondition BFX has no meaning and is refused by name. -/
def Obligations.BfxOutsideThePreconditionIsRefused : Prop :=
  ∀ (s : State) (o : FormatX),
    o.width.toNat = 0 ∨ 64 < o.width.toNat ∨ 64 < o.start.toNat + o.width.toNat →
    exec (.bfx o) s = .refused .extractPrecondition

/-- R80: the reassembly is big-endian; MSB-0 bit `k` lies in byte `k div 8`, and BFX at bit `8k` with width 8 returns
byte `k`. -/
def Obligations.PayloadReassemblyIsBigEndian : Prop :=
  ∀ p0 p1 p2 p3 p4 p5 p6 p7 : Byte,
    (be64 [p0, p1, p2, p3, p4, p5, p6, p7]).toNat =
      p0.toNat * 2 ^ 56 + p1.toNat * 2 ^ 48 + p2.toNat * 2 ^ 40 + p3.toNat * 2 ^ 32 + p4.toNat * 2 ^ 24 +
        p5.toNat * 2 ^ 16 + p6.toNat * 2 ^ 8 + p7.toNat ∧
    (∀ k, k < 64 → (be64 [p0, p1, p2, p3, p4, p5, p6, p7]).getLsbD (63 - k) =
      ([p0, p1, p2, p3, p4, p5, p6, p7].getD (k / 8) 0).getLsbD (7 - k % 8)) ∧
    ∀ (s : State) (k : Nat), k < 8 →
      exec (.bfx ⟨be64 [p0, p1, p2, p3, p4, p5, p6, p7], BitVec.ofNat 6 (8 * k), 8⟩) s = .next
        { s with
          answer := some { status := .ok, data := ([p0, p1, p2, p3, p4, p5, p6, p7].getD k 0).setWidth 128,
                           statCfg := none }
          surf := [] }

/-- R85, R86: SDEC filters a frame of another id or length, and otherwise reports the two status fields at the two
offsets; it writes no state either way. -/
def Obligations.SdecDecodesOrFilters : Prop :=
  ∀ (s : State) (o : FormatF),
    (o.id ≠ s.params.frameId ∨ o.dlc ≠ 8 →
      exec (.sdec o) s =
        .next { s with answer := some { status := .filtered, data := 0, statCfg := none }, surf := [] }) ∧
    (o.id = s.params.frameId → o.dlc = 8 → ∃ d : ResData,
      exec (.sdec o) s = .next { s with answer := some { status := .ok, data := d, statCfg := none }, surf := [] } ∧
      d.toNat = 1 + 2 * (o.payload.toNat / 2 ^ (62 - s.params.leftOff.val) % 4) +
        8 * (o.payload.toNat / 2 ^ (62 - s.params.rightOff.val) % 4))

/-! ### Checksum and packet codec -/

/-- R91: CSUM answers the XOR of the first `len` lanes, bit by bit a parity, for `len` up to 12, and BAD_OP above; it
writes no state. -/
def Obligations.CsumFoldsTheFirstLanes : Prop :=
  ∀ (s : State) (o : FormatP),
    (o.len.toNat ≤ 12 → ∃ d : ResData,
      exec (.csum o) s = .next { s with answer := some { status := .ok, data := d, statCfg := none }, surf := [] } ∧
      ∀ j, d.getLsbD j = (decide (j < 8) &&
        decide (((List.range o.len.toNat).filter fun k => o.bytes.getLsbD (8 * k + j)).length % 2 = 1))) ∧
    (12 < o.len.toNat →
      exec (.csum o) s =
        .next { s with answer := some { status := .badOp, data := 0, statCfg := none }, surf := [] })

/-- R90: the laws of the checksum: the empty fold, the parity of each bit position, independence of the order, zero over
a string that ends in its own checksum, and one changed bit. -/
def Obligations.XorsumIsABitwiseParity : Prop :=
  (∀ b : List Byte, xorsum b 0 = 0) ∧
  (∀ (b : List Byte) (n j : Nat),
    (xorsum b n).getLsbD j = decide (((b.take n).filter fun x => x.getLsbD j).length % 2 = 1)) ∧
  (∀ b b' : List Byte, b.Perm b' → xorsum b b.length = xorsum b' b'.length) ∧
  (∀ b : List Byte, xorsum (b ++ [xorsum b b.length]) (b.length + 1) = 0) ∧
  (∀ (b : List Byte) (k j : Nat), k < b.length → j < 8 →
    xorsum (b.set k (b.getD k 0 ^^^ (1#8 <<< j))) b.length = xorsum b b.length ^^^ (1#8 <<< j))

/-- R92, R94, R95: under format A PKENC answers the twelve bytes of the table, `PKT_LEN` = 12 above them and 0 elsewhere,
and writes no state. -/
def Obligations.PkencLaysOutFormatA : Prop :=
  ∀ (s : State) (o : FormatE), s.params.fmt = .a → ∃ d : ResData,
    exec (.pkenc o) s = .next { s with answer := some { status := .ok, data := d, statCfg := none }, surf := [] } ∧
    d.extractLsb' 0 8 = s.params.magic ∧ d.extractLsb' 8 8 = s.params.version ∧
    d.extractLsb' 16 8 = o.left.setWidth 8 ∧ d.extractLsb' 24 8 = o.right.setWidth 8 ∧
    d.extractLsb' 32 8 = o.flags ∧ d.extractLsb' 40 16 = o.seq.setWidth 16 ∧ d.extractLsb' 56 32 = o.clock ∧
    d.extractLsb' 88 8 =
      ((List.range 11).map fun k => d.extractLsb' (8 * k) 8).foldl (fun acc x : Byte => acc ^^^ x) 0 ∧
    d.extractLsb' 96 4 = 12 ∧ d.extractLsb' 100 28 = 0

/-- R93, R94, R95 (D7; the big-endian sequence of `B_SEQ_LE` false is log 9): under format B PKENC answers the four
sequence bytes and the bitmask with each flag at its `B_BIT` and the other bits 0, `PKT_LEN` = 5, and 0 elsewhere. -/
def Obligations.PkencLaysOutFormatB : Prop :=
  ∀ (s : State) (o : FormatE), s.params.fmt = .b → s.params.legal = true → ∃ d : ResData,
    exec (.pkenc o) s = .next { s with answer := some { status := .ok, data := d, statCfg := none }, surf := [] } ∧
    (s.params.bSeqLe = true → d.extractLsb' 0 32 = o.seq) ∧
    (s.params.bSeqLe = false → ∀ k, k < 4 → d.extractLsb' (8 * k) 8 = o.seq.extractLsb' (24 - 8 * k) 8) ∧
    d.getLsbD (32 + s.params.bBit.lt.val) = o.bits6.getLsbD 0 ∧
    d.getLsbD (32 + s.params.bBit.rt.val) = o.bits6.getLsbD 1 ∧
    d.getLsbD (32 + s.params.bBit.ap.val) = o.bits6.getLsbD 2 ∧
    d.getLsbD (32 + s.params.bBit.ch.val) = o.bits6.getLsbD 3 ∧
    d.getLsbD (32 + s.params.bBit.pl.val) = o.bits6.getLsbD 4 ∧
    d.getLsbD (32 + s.params.bBit.tr.val) = o.bits6.getLsbD 5 ∧
    (∀ j : Fin 8, j ∉ s.params.bBit.toList → d.getLsbD (32 + j.val) = false) ∧
    d.extractLsb' 40 56 = 0 ∧ d.extractLsb' 96 4 = 5 ∧ d.extractLsb' 100 28 = 0

/-- R99: an encoded packet decodes to its own fields, under format A and under format B. -/
def Obligations.PacketCodecRoundTrips : Prop :=
  ∀ (p : Params) (f : PktFields),
    (p.fmt = .a → f.seq.toNat < 2 ^ 16 → ∃ g, pktDecode p (packLanes (pktEncode p f)) 12 = .ok g ∧
      g.left = f.left ∧ g.right = f.right ∧ g.flags = f.flags ∧ g.seq = f.seq ∧ g.clock = f.clock) ∧
    (p.fmt = .b → p.legal = true → ∃ g, pktDecode p (packLanes (pktEncode p f)) 5 = .ok g ∧
      g.seq = f.seq ∧ g.bits6 = f.bits6)

/-- R100: a valid format A packet with any one of its 96 bits flipped is rejected with the status of the byte it is in;
two flips at one bit position of two bytes among 2 to 11 pass the checksum; every five bytes are a format B packet. -/
def Obligations.SingleBitErrorsAreDetected : Prop :=
  (∀ (p : Params) (b : BitVec 96) (f : PktFields), p.fmt = .a → pktDecode p b 12 = .ok f →
    (∀ i, i < 8 → pktDecode p (b ^^^ (1#96 <<< i)) 12 = .error .badMagic) ∧
    (∀ i, 8 ≤ i → i < 16 → pktDecode p (b ^^^ (1#96 <<< i)) 12 = .error .badVersion) ∧
    (∀ i, 16 ≤ i → i < 96 → pktDecode p (b ^^^ (1#96 <<< i)) 12 = .error .badChecksum) ∧
    (∀ k k' j, 2 ≤ k → k < 12 → 2 ≤ k' → k' < 12 → k ≠ k' → j < 8 →
      pktDecode p (b ^^^ (1#96 <<< (8 * k + j)) ^^^ (1#96 <<< (8 * k' + j))) 12 ≠ .error .badChecksum)) ∧
  (∀ (p : Params) (b : BitVec 96), p.fmt = .b → ∃ f, pktDecode p b 5 = .ok f)

/-- R96, R97, R98 (D8, D9, D10): under format A PKDEC reports the first failure in the order length, magic, version,
checksum, field range, and otherwise the fields in format E; it writes no state, whatever the status. -/
def Obligations.PkdecReportsTheFirstFailure : Prop :=
  ∀ (s : State) (o : FormatP), s.params.fmt = .a → ∃ (st : Status) (d : ResData),
    exec (.pkdec o) s = .next { s with answer := some { status := st, data := d, statCfg := none }, surf := [] } ∧
    (o.len.toNat ≠ 12 → st = .badLen ∧ d = 0) ∧
    (o.len.toNat = 12 → o.bytes.extractLsb' 0 8 ≠ s.params.magic → st = .badMagic ∧ d = 0) ∧
    (o.len.toNat = 12 → o.bytes.extractLsb' 0 8 = s.params.magic → o.bytes.extractLsb' 8 8 ≠ s.params.version →
      st = .badVersion ∧ d = 0) ∧
    (o.len.toNat = 12 → o.bytes.extractLsb' 0 8 = s.params.magic → o.bytes.extractLsb' 8 8 = s.params.version →
      (((List.range 12).map fun k => o.bytes.extractLsb' (8 * k) 8).foldl (fun acc x : Byte => acc ^^^ x) 0 ≠ 0 →
        st = .badChecksum ∧ d = 0) ∧
      (((List.range 12).map fun k => o.bytes.extractLsb' (8 * k) 8).foldl (fun acc x : Byte => acc ^^^ x) 0 = 0 →
        (o.bytes.extractLsb' 18 6 ≠ 0 ∨ o.bytes.extractLsb' 26 6 ≠ 0 → st = .badField ∧ d = 0) ∧
        (o.bytes.extractLsb' 18 6 = 0 → o.bytes.extractLsb' 26 6 = 0 →
          st = .ok ∧ d.extractLsb' 0 2 = o.bytes.extractLsb' 16 2 ∧ d.extractLsb' 2 2 = o.bytes.extractLsb' 24 2 ∧
          d.extractLsb' 4 8 = o.bytes.extractLsb' 32 8 ∧
          d.extractLsb' 12 32 = (o.bytes.extractLsb' 40 16).setWidth 32 ∧
          d.extractLsb' 44 32 = o.bytes.extractLsb' 56 32 ∧
          d.getLsbD 76 = decide (o.bytes.extractLsb' 16 2 = 1) ∧
          d.getLsbD 77 = decide (o.bytes.extractLsb' 24 2 = 1) ∧ d.extractLsb' 78 50 = 0)))

/-- R97, R98 (D7, D10; the big-endian sequence is log 9): under format B PKDEC checks the length alone, and reports the
sequence, the six flags and the codes filled from them. -/
def Obligations.PkdecFormatBChecksTheLengthAlone : Prop :=
  ∀ (s : State) (o : FormatP), s.params.fmt = .b →
    (o.len.toNat ≠ 5 →
      exec (.pkdec o) s =
        .next { s with answer := some { status := .badLen, data := 0, statCfg := none }, surf := [] }) ∧
    (o.len.toNat = 5 → ∃ d : ResData,
      exec (.pkdec o) s = .next { s with answer := some { status := .ok, data := d, statCfg := none }, surf := [] } ∧
      (s.params.bSeqLe = true → d.extractLsb' 12 32 = o.bytes.extractLsb' 0 32) ∧
      (s.params.bSeqLe = false → ∀ k, k < 4 → d.extractLsb' (12 + 8 * k) 8 = o.bytes.extractLsb' (24 - 8 * k) 8) ∧
      d.getLsbD 76 = o.bytes.getLsbD (32 + s.params.bBit.lt.val) ∧
      d.getLsbD 77 = o.bytes.getLsbD (32 + s.params.bBit.rt.val) ∧
      d.getLsbD 78 = o.bytes.getLsbD (32 + s.params.bBit.ap.val) ∧
      d.getLsbD 79 = o.bytes.getLsbD (32 + s.params.bBit.ch.val) ∧
      d.getLsbD 80 = o.bytes.getLsbD (32 + s.params.bBit.pl.val) ∧
      d.getLsbD 81 = o.bytes.getLsbD (32 + s.params.bBit.tr.val) ∧
      d.extractLsb' 0 2 = (if d.getLsbD 76 then 1 else 0) ∧ d.extractLsb' 2 2 = (if d.getLsbD 77 then 1 else 0) ∧
      d.extractLsb' 4 8 = 0 ∧ d.extractLsb' 44 32 = 0 ∧ d.extractLsb' 82 46 = 0)

/-! ### Mailbox, POLL and liveness -/

/-- R42, R110 (the receipt time is D11): RX overwrites every field of the mailbox, fresh or not, answers OK, and changes
nothing else. -/
def Obligations.RxOverwritesTheMailbox : Prop :=
  ∀ (s : State) (o : FormatP),
    exec (.rx o) s = .next
      { s with
        mb := { fresh := true, len := o.len, data := o.bytes, rxTime := s.pins.now, qValid := o.qv, q := o.q }
        answer := some { status := .ok, data := 0, statCfg := none }
        surf := [] }

/-- R53, R50 (c): when two packets are published before a take, POLL at any later time sees the last one only: the earlier
leaves no trace. The pins of the second RX and of the POLL are any. -/
def Obligations.EarlierPublishIsLostWithoutTrace : Prop :=
  ∀ (s a b b' : State) (o1 o2 : FormatP) (q : Pins), exec (.rx o1) s = .next a →
    exec (.rx o2) { a with pins := q } = .next b → exec (.rx o2) { s with pins := q } = .next b' →
    b = b' ∧ (∀ q' : Pins, exec .poll { b with pins := q' } = exec .poll { b' with pins := q' }) ∧
    b.mb.data = o2.bytes ∧ b.mb.rxTime = q.now

/-- R111, R43, R50 (b): POLL on a cell that is not fresh answers NO_PKT and changes no register, and after any POLL the cell
is not fresh. -/
def Obligations.PollWithoutAFreshPacket : Prop :=
  (∀ s : State, s.mb.fresh = false →
    exec .poll s = .next { s with answer := some { status := .noPkt, data := 0, statCfg := none }, surf := [] }) ∧
  (∀ s t : State, exec .poll s = .next t →
    exec .poll t = .next { t with answer := some { status := .noPkt, data := 0, statCfg := none }, surf := [] })

/-- R101, R111: a rejected packet changes the freshness marker and `RXSTAT` and no other register; nothing of it reaches a
TICK either, which goes on as if the packet had been taken before. -/
def Obligations.RejectedPacketMutatesNothing : Prop :=
  ∀ (s : State) (r : PktReject), s.mb.fresh = true → pktDecode s.params s.mb.data s.mb.len = .error r →
    exec .poll s = .next
      { s with
        mb := { s.mb with fresh := false }
        rxstat := r.status
        answer := some { status := r.status, data := 0, statCfg := none }
        surf := [] } ∧
    ∃ t t' : State, exec .tick s = .next t ∧
      exec .tick { s with mb := { s.mb with fresh := false }, rxstat := r.status } = .next t' ∧
      t = { t' with answer := t.answer }

/-- R112, R111: an accepted packet overwrites every field of `VS` and of `LV`, whatever they held; the receipt time is the
mailbox's, and under format A the four status Booleans are written 0. The frame: the debouncers, the timer, the override
and the configuration stay. -/
def Obligations.AcceptedPacketOverwritesWholesale : Prop :=
  ∀ (s : State) (f : PktFields), s.mb.fresh = true → pktDecode s.params s.mb.data s.mb.len = .ok f →
    ∃ (t : State) (d : ResData), exec .poll s = .next t ∧
      t.vs = { bits6 := f.bits6, ls := f.left, rs := f.right, flags := f.flags } ∧
      t.lv = { valid := true, lastRx := s.mb.rxTime, lastSeq := f.seq, qValid := s.mb.qValid, q := s.mb.q,
               senderClock := f.clock } ∧
      (s.params.fmt = .a → t.vs.bits6.ap = false ∧ t.vs.bits6.ch = false ∧ t.vs.bits6.pl = false ∧
        t.vs.bits6.tr = false) ∧
      t.mb = { s.mb with fresh := false } ∧ t.rxstat = .ok ∧
      t.db = s.db ∧ t.tf = s.tf ∧ t.ovr = s.ovr ∧ t.cfg = s.cfg ∧ t.params = s.params ∧ t.pins = s.pins ∧
      t.script = s.script ∧ t.rstHeld = s.rstHeld ∧ t.draws = s.draws ∧ t.surf = [] ∧
      (s.params.hasModeFsm = false → t.mls = s.mls) ∧
      t.answer = some { status := .ok, data := d, statCfg := none }

/-- R111, R114 (D13): the result of an accepting POLL: `had_prev`, `seq_newer` and `seq_delta` modulo `2^SW`, with the
half-range window; acceptance does not depend on any of them. -/
def Obligations.SequenceComparisonSurvivesTheWrap : Prop :=
  ∀ (s : State) (f : PktFields) (w : Nat), s.mb.fresh = true → pktDecode s.params s.mb.data s.mb.len = .ok f →
    (s.params.fmt = .a → w = 16) → (s.params.fmt = .b → w = 32) →
    ∃ (t : State) (d : ResData), exec .poll s = .next t ∧
      t.answer = some { status := .ok, data := d, statCfg := none } ∧ t.lv.lastSeq = f.seq ∧
      d.getLsbD 0 = s.lv.valid ∧
      (d.extractLsb' 2 32).toNat = (f.seq.toNat + 2 ^ 32 - s.lv.lastSeq.toNat) % 2 ^ w ∧
      (d.getLsbD 1 = true ↔ s.lv.valid = true ∧ 0 < (d.extractLsb' 2 32).toNat ∧
        (d.extractLsb' 2 32).toNat < 2 ^ (w - 1)) ∧
      d.extractLsb' 34 94 = 0

/-- R113: `alive`, as STAT reports it, holds exactly when a packet has been accepted and `now` is at most the dead window
after its receipt, on the unbounded times the stamps stand for. -/
def Obligations.AliveIsAnAgeWithinTheDeadWindow : Prop :=
  ∀ (s : State) (received current : Nat), s.pins.now = BitVec.ofNat 32 current →
    s.lv.lastRx = BitVec.ofNat 32 received → received ≤ current → current - received < 2 ^ 32 →
    ∃ d : ResData,
      exec .stat s = .next
        { s with answer := some { status := .ok, data := d, statCfg := some s.cfg }, surf := [] } ∧
      (d.getLsbD 51 = true ↔ s.lv.valid = true ∧ current ≤ received + s.cfg.deadWindow.toNat)

/-- R116: neither `LV` nor the dead window nor the time decides whether POLL accepts the packet or what it applies. -/
def Obligations.LivenessNeverGatesAcceptance : Prop :=
  ∀ (s : State) (lv : LivenessRecord) (w : BitVec 32) (now : Time),
    ∃ (t t' : State) (st : Status) (d d' : ResData), exec .poll s = .next t ∧
      exec .poll { s with lv := lv, cfg := { s.cfg with deadWindow := w }, pins := { s.pins with now := now } }
        = .next t' ∧
      t.answer = some { status := st, data := d, statCfg := none } ∧
      t'.answer = some { status := st, data := d', statCfg := none } ∧
      t'.vs = t.vs ∧ t'.mb = t.mb ∧ t'.rxstat = t.rxstat ∧ t'.mls = t.mls ∧ (st = .ok → t'.lv = t.lv)

/-! ### The render tick -/

/-- R170 (D18): TICK does first what POLL does: after a POLL the same TICK leaves the same registers, answers the same and
emits the same events, but for the packet status in `res_data[13:10]`, which is the POLL's. -/
def Obligations.TickBeginsWithThePacketSubStep : Prop :=
  ∀ s : State, ∃ (u t t' : State) (st st' : Status) (d d' d'' : ResData), exec .poll s = .next u ∧
    u.answer = some { status := st, data := d, statCfg := none } ∧ exec .tick s = .next t ∧ exec .tick u = .next t' ∧
    t.answer = some { status := st', data := d', statCfg := none } ∧
    t'.answer = some { status := st', data := d'', statCfg := none } ∧
    t = { t' with answer := t.answer } ∧
    d'.extractLsb' 10 4 = st.code ∧ d''.extractLsb' 10 4 = 1 ∧ d'.extractLsb' 0 10 = d''.extractLsb' 0 10 ∧
    d'.extractLsb' 14 114 = 0 ∧ d''.extractLsb' 14 114 = 0

/-- R171 (D18), R170: while the frame period has not elapsed TICK leaves what POLL leaves, answers YIELD with the packet
status alone, and emits nothing. -/
def Obligations.TickYieldsBeforeTheFramePeriod : Prop :=
  ∀ (s u : State) (st : Status) (d : ResData), exec .poll s = .next u →
    u.answer = some { status := st, data := d, statCfg := none } →
    (s.pins.now - s.tf).toNat < s.cfg.framePeriod.toNat →
    exec .tick s = .next
      { u with
        answer := some { status := .yield, data := BitVec.ofNat 128 (1024 * st.code.toNat), statCfg := none }
        surf := [] }

/-- R170, R171, R172 (D18), R117 (D12): from exactly one period on TICK advances: the timer takes `now`, `VS` is the safe
default when the link is not alive, and `LV`, `MB`, `RXSTAT`, `OVR` and `CFG` are as POLL leaves them; the answer is OK
with `alive`, the mode and the packet status. -/
def Obligations.TickAdvancesFromTheFramePeriodOn : Prop :=
  ∀ (s u : State) (st : Status) (d : ResData), exec .poll s = .next u →
    u.answer = some { status := st, data := d, statCfg := none } →
    s.cfg.framePeriod.toNat ≤ (s.pins.now - s.tf).toNat →
    ∃ (t : State) (d' : ResData), exec .tick s = .next t ∧
      t.answer = some { status := .ok, data := d', statCfg := none } ∧ t.tf = s.pins.now ∧
      t.lv = u.lv ∧ t.mb = u.mb ∧ t.rxstat = u.rxstat ∧ t.ovr = u.ovr ∧ t.cfg = u.cfg ∧ t.params = u.params ∧
      t.pins = u.pins ∧ t.script = u.script ∧ t.rstHeld = u.rstHeld ∧
      ((u.lv.valid = true ∧ (s.pins.now - u.lv.lastRx).toNat ≤ u.cfg.deadWindow.toNat) →
        t.vs = u.vs ∧ d'.getLsbD 6 = true) ∧
      (¬ (u.lv.valid = true ∧ (s.pins.now - u.lv.lastRx).toNat ≤ u.cfg.deadWindow.toNat) →
        t.vs = { bits6 := ⟨false, false, false, false, false, false⟩, ls := .off, rs := .off, flags := 0 } ∧
        d'.getLsbD 6 = false) ∧
      (t.params.hasModeFsm = true → d'.extractLsb' 7 3 = t.mls.mode.code) ∧
      (t.params.hasModeFsm = false → d'.extractLsb' 7 3 = 4 ∧ t.mls = u.mls) ∧
      d'.extractLsb' 10 4 = st.code

/-- R130, R132: in an advancing tick each side is debounced: a true sample sets and stamps, a false sample releases an active
side only when more than `HOLD` has elapsed, and otherwise the record stays. The sample is the override's bit when the
test flag is set, else the bit of `VS` after link loss. -/
def Obligations.TickDebouncesEachSide : Prop :=
  ∀ (s u : State) (left right : Bool), exec .poll s = .next u →
    s.cfg.framePeriod.toNat ≤ (s.pins.now - s.tf).toNat →
    (s.ovr.en = true → left = s.ovr.bits6.lt ∧ right = s.ovr.bits6.rt) →
    (s.ovr.en = false → u.lv.valid = true → (s.pins.now - u.lv.lastRx).toNat ≤ u.cfg.deadWindow.toNat →
      left = u.vs.bits6.lt ∧ right = u.vs.bits6.rt) →
    (s.ovr.en = false → ¬ (u.lv.valid = true ∧ (s.pins.now - u.lv.lastRx).toNat ≤ u.cfg.deadWindow.toNat) →
      left = false ∧ right = false) →
    ∃ t, exec .tick s = .next t ∧ ∀ side : Side,
      (side = .left → left = true → t.db.left = { active := true, lastTrue := s.pins.now }) ∧
      (side = .right → right = true → t.db.right = { active := true, lastTrue := s.pins.now }) ∧
      ((side = .left ∧ left = false ∨ side = .right ∧ right = false) →
        ((s.db.get side).active = true → s.cfg.hold.toNat < (s.pins.now - (s.db.get side).lastTrue).toNat →
          t.db.get side = { active := false, lastTrue := (s.db.get side).lastTrue }) ∧
        ((s.db.get side).active = true → (s.pins.now - (s.db.get side).lastTrue).toNat ≤ s.cfg.hold.toNat →
          t.db.get side = s.db.get side) ∧
        ((s.db.get side).active = false → t.db.get side = s.db.get side))

/-- R131: over any number of advancing ticks a gap of false samples no longer than `HOLD` after the last true one leaves the
side active; the first tick past `HOLD` clears it, and it stays clear until a true sample. -/
def Obligations.DebounceMasksShortGapsAndReleases : Prop :=
  (∀ (hold : BitVec 32) (t0 : Time) (ticks : List Time), (∀ t ∈ ticks, (t - t0).toNat ≤ hold.toNat) →
    ticks.foldl (fun d t => debounceStep hold d false t) { active := true, lastTrue := t0 } =
      { active := true, lastTrue := t0 }) ∧
  (∀ (hold : BitVec 32) (t0 tk : Time) (before after : List Time), (∀ t ∈ before, (t - t0).toNat ≤ hold.toNat) →
    hold.toNat < (tk - t0).toNat →
    (before ++ tk :: after).foldl (fun d t => debounceStep hold d false t) { active := true, lastTrue := t0 } =
      { active := false, lastTrue := t0 }) ∧
  (∀ (hold : BitVec 32) (d : DebounceRec) (ticks : List (Bool × Time)) (t : Time),
    ((ticks ++ [(true, t)]).foldl (fun d x => debounceStep hold d x.1 x.2) d) = { active := true, lastTrue := t })

/-- R16: the two sides are independent: what one side's record holds never reaches the other side's. -/
def Obligations.DebounceSidesAreIndependent : Prop :=
  ∀ (i : Instr) (s t t' : State) (x : DebounceRec),
    (exec i s = .next t → exec i { s with db := { s.db with right := x } } = .next t' → t'.db.left = t.db.left) ∧
    (exec i s = .next t → exec i { s with db := { s.db with left := x } } = .next t' → t'.db.right = t.db.right)

/-- R143, R140 (D26): in an advancing tick each side's result in the answer is the highest eligible category over the new
debounced turn bit and the four raw conditions, or NONE; so the sides agree when their turn bits do. -/
def Obligations.TickArbitratesEachSide : Prop :=
  ∀ (s t : State) (d : ResData), s.cfg.framePeriod.toNat ≤ (s.pins.now - s.tf).toNat → exec .tick s = .next t →
    t.answer = some { status := .ok, data := d, statCfg := none } →
    (∀ side : Side, ∃ r : PriorityResult,
      d.extractLsb' (match side with | .left => 0 | .right => 3) 3 = prCode r ∧
      ∀ eff : Bits6, eff = (if t.ovr.en then t.ovr.bits6 else t.vs.bits6) →
      ∀ el : Category → Bool,
        (∀ c, el c = (t.cfg.alertsEn && t.cfg.en.get c &&
          (match c with
            | .turn => (t.db.get side).active
            | .charging => eff.ch
            | .autopilot => eff.ap
            | .track => eff.tr
            | .plugged => eff.pl))) →
        (∀ c, r = some c → el c = true ∧ ∀ c', c'.code < c.code → el c' = false) ∧
        (r = none → ∀ c, el c = false)) ∧
    (t.db.left.active = t.db.right.active → d.extractLsb' 0 3 = d.extractLsb' 3 3)

/-- R140 (D26), R141: ARB answers the eligible category of smallest code, or NONE, from its operands alone, and writes no
state. -/
def Obligations.ArbPicksTheHighestEligibleCategory : Prop :=
  ∀ (s : State) (o : FormatQ), ∃ r : PriorityResult,
    exec (.arb o) s = .next
      { s with answer := some { status := .ok, data := (prCode r).setWidth 128, statCfg := none }, surf := [] } ∧
    (∀ c, r = some c →
      o.alerts = true ∧ o.en.getLsbD (c.code.toNat - 1) = true ∧ o.cond.getLsbD (c.code.toNat - 1) = true ∧
      ∀ c' : Category, c'.code < c.code →
        (o.en.getLsbD (c'.code.toNat - 1) && o.cond.getLsbD (c'.code.toNat - 1)) = false) ∧
    (r = none → o.alerts = false ∨
      ∀ c : Category, (o.en.getLsbD (c.code.toNat - 1) && o.cond.getLsbD (c.code.toNat - 1)) = false)

/-! ### The renderer -/

/-- R155, R156, R158 (D16), R159: an advancing tick in mode RUNNING emits the left strip and then the right one, each its
writes in increasing order and then one show; the ambient body comes first, the tail has the category's scaled colour, and
the colour of a position depends on no other position. No free colour is drawn. -/
def Obligations.RunningTickEmitsBodyAndTail : Prop :=
  ∀ (s t : State) (d : ResData) (prL prR : PriorityResult),
    s.cfg.framePeriod.toNat ≤ (s.pins.now - s.tf).toNat → exec .tick s = .next t →
    t.answer = some { status := .ok, data := d, statCfg := none } → d.extractLsb' 7 3 = 4 →
    d.extractLsb' 0 3 = prCode prL → d.extractLsb' 3 3 = prCode prR →
    ∀ colour : Side → PriorityResult → Nat → Colour,
      (∀ side i, colour side none i = s.cfg.colAmbient) →
      (∀ side c i, i < (s.cfg.len.get side).toNat - min (s.cfg.tail.get side).toNat (s.cfg.len.get side).toNat →
        colour side (some c) i = s.cfg.colAmbient) →
      (∀ side c i, (s.cfg.len.get side).toNat - min (s.cfg.tail.get side).toNat (s.cfg.len.get side).toNat ≤ i →
        colour side (some c) i = scale (s.cfg.col.get c) (b8 s.cfg c s.pins.now)) →
      t.surf =
        ((List.range s.cfg.len.left.toNat).map fun i => SurfEvent.surfWrite .left i (colour .left prL i)) ++
          [SurfEvent.surfShow .left] ++
        ((List.range s.cfg.len.right.toNat).map fun i => SurfEvent.surfWrite .right i (colour .right prR i)) ++
          [SurfEvent.surfShow .right] ∧
      t.draws = s.draws

/-- R198, U7 (log 6): in any other mode an advancing tick emits the same events at the same positions; the colours are
free, so only their number is stated. -/
def Obligations.DiagnosticTickKeepsTheEventOrder : Prop :=
  ∀ (s t : State) (d : ResData),
    s.cfg.framePeriod.toNat ≤ (s.pins.now - s.tf).toNat → exec .tick s = .next t →
    t.answer = some { status := .ok, data := d, statCfg := none } → d.extractLsb' 7 3 ≠ 4 →
    (∃ left right : Nat → Colour, t.surf =
      ((List.range s.cfg.len.left.toNat).map fun i => SurfEvent.surfWrite .left i (left i)) ++
        [SurfEvent.surfShow .left] ++
      ((List.range s.cfg.len.right.toNat).map fun i => SurfEvent.surfWrite .right i (right i)) ++
        [SurfEvent.surfShow .right]) ∧
    t.draws = s.draws + s.cfg.len.left.toNat + s.cfg.len.right.toNat

/-- R152, R153, R154 (D14): under R21 the brightness lies between the floor and the floor plus the swing, whatever the pulse;
scaling rounds each channel down, is the identity at 255, black at 0, and brightens no channel; and `PULSE8` has the values
of the reference at the four quarter points (elsewhere it is free, log 5). -/
def Obligations.BrightnessStaysWithinItsBounds : Prop :=
  (∀ (maxLen : Nat) (cfg : CfgRec) (c : Category) (t : Time), cfg.legal maxLen = true →
    1 ≤ cfg.baseline.toNat ∧ cfg.baseline.toNat ≤ (b8 cfg c t).toNat ∧
    (b8 cfg c t).toNat ≤ cfg.baseline.toNat + cfg.range.toNat ∧ cfg.baseline.toNat + cfg.range.toNat ≤ 255 ∧
    (b8 cfg c t).toNat = cfg.baseline.toNat + cfg.range.toNat *
      (pulse8 (t.toNat % (cfg.period.get c).toNat) (cfg.period.get c).toNat).toNat / 255) ∧
  (∀ (col : Colour) (b : Byte),
    (scale col b).r.toNat = col.r.toNat * b.toNat / 255 ∧ (scale col b).g.toNat = col.g.toNat * b.toNat / 255 ∧
    (scale col b).b.toNat = col.b.toNat * b.toNat / 255 ∧
    (scale col b).r.toNat ≤ col.r.toNat ∧ (scale col b).g.toNat ≤ col.g.toNat ∧ (scale col b).b.toNat ≤ col.b.toNat ∧
    scale col 255 = col ∧ scale col 0 = ⟨0, 0, 0⟩) ∧
  (∀ P : Nat, 1 ≤ P →
    pulse8 0 P = 128 ∧ (4 ∣ P → pulse8 (P / 4) P = 255) ∧ (2 ∣ P → pulse8 (P / 2) P = 128) ∧
    (4 ∣ P → pulse8 (3 * P / 4) P = 0))

/-- R241, R160: with no packet accepted or waiting, the override off and both sides inactive, every step that performs TICK
in mode RUNNING writes only the ambient colour, and the same still holds after it. -/
def Obligations.NoPacketMeansAmbientOnly : Prop :=
  ∀ s : State, s.lv.valid = false → s.mb.fresh = false → s.ovr.en = false → s.db.left.active = false →
    s.db.right.active = false → s.params.hasModeFsm = false →
    ∃ t, exec .tick s = .next t ∧
      (∀ side i c, SurfEvent.surfWrite side i c ∈ t.surf → c = s.cfg.colAmbient) ∧
      t.lv.valid = false ∧ t.mb.fresh = false ∧ t.ovr.en = false ∧ t.db.left.active = false ∧
      t.db.right.active = false ∧ t.params.hasModeFsm = false ∧ t.cfg = s.cfg

/-! ### System operations -/

/-- R173: RECONF copies the whole record on `cfg_port` into `CFG`, tells the surface, and changes nothing else. A record that
breaks R21 is refused by name: R173 only calls that case undefined, and the refusal is the model's (log 7), as U5 of
93_implementation_defined.md has a model do. -/
def Obligations.ReconfLoadsTheWholeRecord : Prop :=
  ∀ s : State,
    (s.pins.cfgPort.legal s.params.maxLen = true →
      exec .reconf s = .next
        { s with
          cfg := s.pins.cfgPort
          answer := some { status := .ok, data := 0, statCfg := none }
          surf := [.surfConfig s.pins.cfgPort.len.left s.pins.cfgPort.len.right s.pins.cfgPort.gbright] }) ∧
    (s.pins.cfgPort.legal s.params.maxLen = false → exec .reconf s = .refused .illegalConfig)

/-- R21: what a legal record is. -/
def Obligations.LegalRecordsKeepTheHardConstraints : Prop :=
  ∀ (maxLen : Nat) (c : CfgRec), c.legal maxLen = true ↔
    (∀ k : Category, 1 ≤ (c.period.get k).toNat) ∧ (∀ side : Side, (c.len.get side).toNat ≤ maxLen) ∧
    1 ≤ c.baseline.toNat ∧ c.baseline.toNat + c.range.toNat ≤ 255

/-- R174: OVRD writes the test flag and the six bits and changes nothing else. -/
def Obligations.OvrdWritesTheOverride : Prop :=
  ∀ (s : State) (o : FormatV),
    exec (.ovrd o) s = .next
      { s with
        ovr := { en := o.en
                 bits6 := { lt := o.bits6.getLsbD 0, rt := o.bits6.getLsbD 1, ap := o.bits6.getLsbD 2,
                            ch := o.bits6.getLsbD 3, pl := o.bits6.getLsbD 4, tr := o.bits6.getLsbD 5 } }
        answer := some { status := .ok, data := 0, statCfg := none }
        surf := [] }

/-- R174: the override is read at the samples only: no operation carries it into `VS`, `LV`, `MB`, `RXSTAT`, `TF`, the mode
or the configuration. -/
def Obligations.OverrideNeverReachesTheVehicleState : Prop :=
  ∀ (i : Instr) (s t t' : State) (o : OverrideReg), exec i s = .next t → exec i { s with ovr := o } = .next t' →
    t'.vs = t.vs ∧ t'.lv = t.lv ∧ t'.mb = t.mb ∧ t'.rxstat = t.rxstat ∧ t'.tf = t.tf ∧ t'.mls = t.mls ∧
    t'.cfg = t.cfg ∧ t'.alive t'.pins.now = t.alive t.pins.now

/-- R175 (D22): STAT answers the snapshot, field by field, with the active configuration, and writes no state; the mailbox is
not taken. -/
def Obligations.StatReportsTheSnapshot : Prop :=
  ∀ s : State, ∃ d : ResData,
    exec .stat s = .next
      { s with answer := some { status := .ok, data := d, statCfg := some s.cfg }, surf := [] } ∧
    d.getLsbD 0 = s.vs.bits6.lt ∧ d.getLsbD 1 = s.vs.bits6.rt ∧ d.getLsbD 2 = s.vs.bits6.ap ∧
    d.getLsbD 3 = s.vs.bits6.ch ∧ d.getLsbD 4 = s.vs.bits6.pl ∧ d.getLsbD 5 = s.vs.bits6.tr ∧
    d.extractLsb' 6 2 = s.vs.ls.code ∧ d.extractLsb' 8 2 = s.vs.rs.code ∧ d.extractLsb' 10 8 = s.vs.flags ∧
    d.getLsbD 18 = s.lv.valid ∧ d.extractLsb' 19 32 = s.pins.now - s.lv.lastRx ∧
    (d.getLsbD 51 = true ↔
      s.lv.valid = true ∧ (s.pins.now - s.lv.lastRx).toNat ≤ s.cfg.deadWindow.toNat) ∧
    d.extractLsb' 52 32 = s.lv.lastSeq ∧ d.getLsbD 84 = s.lv.qValid ∧ d.extractLsb' 85 8 = s.lv.q ∧
    d.extractLsb' 93 4 = s.rxstat.code ∧
    d.extractLsb' 97 3 = (if s.params.hasModeFsm then s.mls.mode.code else 4) ∧ d.getLsbD 100 = s.ovr.en ∧
    d.getLsbD 101 = s.ovr.bits6.lt ∧ d.getLsbD 102 = s.ovr.bits6.rt ∧ d.getLsbD 103 = s.ovr.bits6.ap ∧
    d.getLsbD 104 = s.ovr.bits6.ch ∧ d.getLsbD 105 = s.ovr.bits6.pl ∧ d.getLsbD 106 = s.ovr.bits6.tr ∧
    d.getLsbD 107 = s.db.left.active ∧ d.getLsbD 108 = s.db.right.active ∧ d.getLsbD 109 = s.mb.fresh ∧
    d.extractLsb' 110 18 = 0

/-! ### The mode lifecycle state machine -/

/-- R192: in mode INIT_TRANSPORT TINIT leads to WAIT_LINK or ERROR; in any other mode, and without the state machine, it
changes no register. -/
def Obligations.TinitReportsTheTransport : Prop :=
  ∀ (s : State) (o : FormatI),
    (s.params.hasModeFsm = true → s.mls.mode = .initTransport →
      exec (.tinit o) s = .next
        { s with
          mls := { s.mls with mode := if o.ok then .waitLink else .error }
          answer := some { status := .ok, data := 0, statCfg := none }
          surf := [] }) ∧
    (s.params.hasModeFsm = false ∨ s.mls.mode ≠ .initTransport →
      exec (.tinit o) s = .next { s with answer := some { status := .ok, data := 0, statCfg := none }, surf := [] })

/-- R191, R193, R194, R196 (D24): the mode changes along the transitions of the table only; within one operation a packet may
take two of them, and a TICK the packet's and then the timers'. ERROR is left by no operation. -/
def Obligations.ModeFollowsTheTransitionTable : Prop :=
  ∀ (i : Instr) (s t : State), exec i s = .next t → t.mls.mode ≠ s.mls.mode →
    s.params.hasModeFsm = true ∧ s.mls.mode ≠ .error ∧
    ((∃ o, i = .tinit o ∧ s.mls.mode = .initTransport ∧ t.mls.mode = (if o.ok then .waitLink else .error)) ∨
     ((i = .poll ∨ i = .tick) ∧ s.mls.mode = .waitLink ∧ (t.mls.mode = .waitData ∨ t.mls.mode = .running)) ∨
     ((i = .poll ∨ i = .tick) ∧ s.mls.mode = .waitData ∧ t.mls.mode = .running) ∨
     (i = .tick ∧ s.mls.mode = .booting ∧ t.mls.mode = .initTransport) ∨
     (i = .tick ∧ s.mls.mode = .running ∧ (t.mls.mode = .waitData ∨ t.mls.mode = .waitLink)) ∨
     (i = .tick ∧ s.mls.mode = .waitData ∧ t.mls.mode = .waitLink))

/-- R193, R195 (D24): what an accepted packet does to the mode registers, `meaningful` being the data-seen flag under format
A and always true under format B. -/
def Obligations.AcceptedPacketMovesTheMode : Prop :=
  ∀ (s : State) (f : PktFields) (m : Bool), s.mb.fresh = true →
    pktDecode s.params s.mb.data s.mb.len = .ok f → s.params.hasModeFsm = true →
    (s.params.fmt = .a → m = f.flags.getLsbD 0) → (s.params.fmt = .b → m = true) →
    ∃ t, exec .poll s = .next t ∧ t.mls.modeT = s.mls.modeT ∧
      (m = true → t.mls.dataT = s.mb.rxTime ∧ t.mls.dataV = true) ∧
      (m = false → t.mls.dataT = s.mls.dataT ∧ t.mls.dataV = s.mls.dataV) ∧
      (s.mls.mode = .waitLink ∨ s.mls.mode = .waitData → t.mls.mode = (if m then .running else .waitData)) ∧
      (s.mls.mode ≠ .waitLink → s.mls.mode ≠ .waitData → t.mls.mode = s.mls.mode)

/-- R194, R196 (D24): what an advancing tick does to the mode registers when no packet waits: the end of the boot animation,
silence first, then stale data, at most one transition. -/
def Obligations.TickMovesTheModeByItsTimers : Prop :=
  ∀ (s : State) (silent stale : Prop), s.mb.fresh = false → s.params.hasModeFsm = true →
    s.cfg.framePeriod.toNat ≤ (s.pins.now - s.tf).toNat →
    (silent ↔ (s.lv.valid = false ∨ s.cfg.linkTimeout.toNat < (s.pins.now - s.lv.lastRx).toNat)) →
    (stale ↔ (s.mls.dataV = false ∨ s.cfg.dataTimeout.toNat < (s.pins.now - s.mls.dataT).toNat)) →
    ∃ t, exec .tick s = .next t ∧ t.mls.modeT = s.mls.modeT ∧ t.mls.dataT = s.mls.dataT ∧ t.mls.dataV = s.mls.dataV ∧
      (s.mls.mode = .error → t.mls.mode = .error) ∧
      (s.mls.mode = .initTransport → t.mls.mode = .initTransport) ∧
      (s.mls.mode = .booting → s.cfg.bootTime.toNat ≤ (s.pins.now - s.mls.modeT).toNat →
        t.mls.mode = .initTransport) ∧
      (s.mls.mode = .booting → (s.pins.now - s.mls.modeT).toNat < s.cfg.bootTime.toNat → t.mls.mode = .booting) ∧
      (s.mls.mode = .waitLink → t.mls.mode = .waitLink) ∧
      (s.mls.mode = .waitData ∨ s.mls.mode = .running → silent → t.mls.mode = .waitLink) ∧
      (s.mls.mode = .waitData → ¬ silent → t.mls.mode = .waitData) ∧
      (s.mls.mode = .running → ¬ silent → stale → t.mls.mode = .waitData) ∧
      (s.mls.mode = .running → ¬ silent → ¬ stale → t.mls.mode = .running)

/-- R190 (D17): without the state machine the mode registers are neither written nor read: another value of them changes
nothing but itself. -/
def Obligations.AbsentModeRegistersDoNotExist : Prop :=
  ∀ (i : Instr) (s t : State) (m : ModeRegs), s.params.hasModeFsm = false → exec i s = .next t →
    t.mls = s.mls ∧ exec i { s with mls := m } = .next { t with mls := m }

/-- R197: acceptance of packets, liveness, debouncing and arbitration do not depend on the mode: two states that differ in
the mode registers alone have the same relay registers after any operation. -/
def Obligations.ModeNeverReachesTheRelay : Prop :=
  ∀ (i : Instr) (s t t' : State) (m : ModeRegs), exec i s = .next t → exec i { s with mls := m } = .next t' →
    t'.vs = t.vs ∧ t'.lv = t.lv ∧ t'.db = t.db ∧ t'.tf = t.tf ∧ t'.mb = t.mb ∧ t'.ovr = t.ovr ∧
    t'.rxstat = t.rxstat ∧ t'.cfg = t.cfg ∧ t'.priority .left = t.priority .left ∧
    t'.priority .right = t.priority .right

/-! ### Time and the design constraints -/

/-- R222 (D3): `elapsed` is the true interval whenever that is less than `2^32`, across the wrap too; and two settings of the
pins keep the environment's guarantee exactly when `now` went forward by less than `2^31`. -/
def Obligations.ElapsedIsTheTrueInterval : Prop :=
  (∀ earlier later : Nat, earlier ≤ later → later - earlier < 2 ^ 32 →
    (elapsed (BitVec.ofNat 32 later) (BitVec.ofNat 32 earlier)).toNat = later - earlier) ∧
  (∀ p q : Pins, p.inTime q = true ↔ ∃ n : Nat, n < 2 ^ 31 ∧ q.now = p.now + BitVec.ofNat 32 n)

/-- R22, R246, R249: what the design constraints are for, on a record that keeps them: a true sample is held over a gap of
false ones up to the expected packet gap, a hold is shorter than half a turn period, and the link stays alive over the
number of heartbeats the dead window covers. -/
def Obligations.DesignConstraintsMaskExpectedLosses : Prop :=
  ∀ (gap heartbeats : Nat) (c : CfgRec), c.meetsDesign gap heartbeats = true →
    (∀ (t0 : Time) (ticks : List Time), (∀ t ∈ ticks, (t - t0).toNat ≤ gap) →
      ticks.foldl (fun d t => debounceStep c.hold d false t) { active := true, lastTrue := t0 } =
        { active := true, lastTrue := t0 }) ∧
    2 * c.hold.toNat < c.period.turn.toNat ∧
    (∀ k : Category, k ≠ .turn → (c.period.turn).toNat < (c.period.get k).toNat) ∧
    (∀ s : State, s.cfg = c → s.lv.valid = true →
      (s.pins.now - s.lv.lastRx).toNat ≤ heartbeats * c.heartbeat.toNat → s.alive s.pins.now = true)

/-! ### The whole relay -/

/-- R71, R99, R110, R111, R112 (receipt time: D11; format B: D7, D10): a sender's PKENC, a loss-free RX of its bytes and a
POLL, run as three steps from any state, leave the sender's fields in `VS` and `LV`, whatever they held before. The three
commands are presented as the pins and the script of the environment (log 3). -/
def Obligations.RelayDeliversTheSenderState : Prop :=
  ∀ (s : State) (o : FormatE) (t t' : Time) (c c' : CfgRec), s.rstHeld = false → s.params.legal = true →
    s.pins :: s.script = xmit s.params o t c ++
      [{ rst := false, cmdValid := true, cmd := 0x70000000000000000000000000000000, now := t', cfgPort := c' }] →
    ∃ u, Host.Core.run Sys2Proof.core 3 s = .next u ∧ u.rxstat = .ok ∧ u.mb.fresh = false ∧
      u.lv.valid = true ∧ u.lv.lastRx = t ∧ u.lv.qValid = false ∧
      (s.params.fmt = .a →
        u.vs.ls.code = o.left ∧ u.vs.rs.code = o.right ∧ u.vs.flags = o.flags ∧
        u.vs.bits6 = ⟨decide (o.left = 1), decide (o.right = 1), false, false, false, false⟩ ∧
        u.lv.lastSeq = (o.seq.setWidth 16).setWidth 32 ∧ u.lv.senderClock = o.clock) ∧
      (s.params.fmt = .b → u.vs.bits6.toBits = o.bits6 ∧ u.lv.lastSeq = o.seq ∧ u.lv.senderClock = 0)
end

