-- ==== Sys2Proof/Laws/Bits.lean ====
section
/-! SUPPORT. Bits of a layout: a placed field is read back at its own place, and reads as 0 anywhere else. -/

namespace Sys2Proof

/-- Bit `i` of a placed field. -/
theorem getLsbD_place {w : Nat} (n lo i : Nat) (v : BitVec w) :
    (place n lo v).getLsbD i = (decide (i < n) && (decide (lo ≤ i) && v.getLsbD (i - lo))) := by
  by_cases hn : i < n <;> by_cases hl : lo ≤ i
  · have : ¬ i < lo := by omega
    simp [place, hn, hl, this]
  · have : i < lo := by omega
    simp [place, hn, hl, this]
  · have : n ≤ i := by omega
    simp [place, hn]
  · simp [place, hn]

/-- A field is read back at its own place. -/
theorem extract_place_same {w : Nat} (n lo : Nat) (v : BitVec w) (h : lo + w ≤ n) :
    (place n lo v).extractLsb' lo w = v := by
  apply BitVec.eq_of_getLsbD_eq
  intro j hj
  have h1 : lo + j < n := by omega
  rw [BitVec.getLsbD_extractLsb', getLsbD_place]
  simp [hj, h1]

/-- A part of a field is read back at the place it lies in. -/
theorem extract_place_within {w : Nat} (n lo lo' k : Nat) (v : BitVec w) (h1 : lo ≤ lo') (h2 : lo' + k ≤ lo + w)
    (h3 : lo + w ≤ n) : (place n lo v).extractLsb' lo' k = v.extractLsb' (lo' - lo) k := by
  apply BitVec.eq_of_getLsbD_eq
  intro j hj
  have e1 : lo' + j < n := by omega
  have e2 : lo ≤ lo' + j := by omega
  have e3 : lo' + j - lo = lo' - lo + j := by omega
  rw [BitVec.getLsbD_extractLsb', getLsbD_place, BitVec.getLsbD_extractLsb', e3]
  simp [hj, e1, e2]

/-- A bit of a field is read back at the place it lies in. -/
theorem getLsbD_place_within {w : Nat} (n lo i : Nat) (v : BitVec w) (h1 : lo ≤ i) (h2 : i < lo + w) (h3 : lo + w ≤ n) :
    (place n lo v).getLsbD i = v.getLsbD (i - lo) := by
  have e1 : i < n := by omega
  rw [getLsbD_place]
  simp [e1, h1]

/-- A field reads as 0 where it does not lie. -/
theorem extract_place_disjoint {w : Nat} (n lo lo' k : Nat) (v : BitVec w) (h : lo' + k ≤ lo ∨ lo + w ≤ lo') :
    (place n lo v).extractLsb' lo' k = 0#k := by
  apply BitVec.eq_of_getLsbD_eq
  intro j hj
  rcases h with h | h
  · have : ¬ lo ≤ lo' + j := by omega
    simp [getLsbD_place, this]
  · have : v.getLsbD (lo' + j - lo) = false := BitVec.getLsbD_of_ge _ _ (by omega)
    simp [getLsbD_place, this]

theorem getLsbD_place_disjoint {w : Nat} (n lo i : Nat) (v : BitVec w) (h : i < lo ∨ lo + w ≤ i) :
    (place n lo v).getLsbD i = false := by
  rcases h with h | h
  · have : ¬ lo ≤ i := by omega
    simp [getLsbD_place, this]
  · have : v.getLsbD (i - lo) = false := BitVec.getLsbD_of_ge _ _ (by omega)
    simp [getLsbD_place, this]

theorem getLsbD_placeBit_same (n lo : Nat) (b : Bool) (h : lo < n) : (placeBit n lo b).getLsbD lo = b := by
  rw [placeBit, getLsbD_place]
  simp [h]

theorem getLsbD_placeBit_other (n lo i : Nat) (b : Bool) (h : i ≠ lo) : (placeBit n lo b).getLsbD i = false :=
  getLsbD_place_disjoint _ _ _ _ (by omega)

theorem extract_placeBit_disjoint (n lo lo' k : Nat) (b : Bool) (h : lo' + k ≤ lo ∨ lo + 1 ≤ lo') :
    (placeBit n lo b).extractLsb' lo' k = 0#k :=
  extract_place_disjoint _ _ _ _ _ h

theorem getLsbD_or' {n : Nat} (x y : BitVec n) (i : Nat) : (x ||| y).getLsbD i = (x.getLsbD i || y.getLsbD i) := by
  simp

/-- A field of a layout is the field of its parts. -/
theorem extract_or {n : Nat} (x y : BitVec n) (lo k : Nat) :
    (x ||| y).extractLsb' lo k = x.extractLsb' lo k ||| y.extractLsb' lo k := by
  apply BitVec.eq_of_getLsbD_eq
  intro j hj
  simp [hj]

/-- The bits of the mask of an opcode and the lowest `n` bits. -/
theorem getLsbD_opAndLow (n : Nat) (hn : n ≤ 124) (i : Nat) (hi : i < 128) :
    (opAndLow n).getLsbD i = (decide (i < n) || decide (124 ≤ i)) := by
  unfold opAndLow
  rw [BitVec.getLsbD_ofNat]
  have h2 : 2 ^ n - 1 < 2 ^ 124 :=
    lt_of_lt_of_le (Nat.sub_lt (by positivity) (by decide)) (Nat.pow_le_pow_right (by decide) hn)
  rw [Nat.mul_comm, Nat.testBit_two_pow_mul_add _ h2]
  simp only [hi, decide_true, Bool.true_and]
  by_cases h : i < 124
  · have : ¬ 124 ≤ i := by omega
    simp only [h, if_true, this, decide_false, Bool.or_false, Nat.testBit_two_pow_sub_one]
  · have h3 : 124 ≤ i := by omega
    simp only [h, if_false, h3, decide_true, Bool.or_true]
    obtain ⟨k, rfl⟩ : ∃ k, i = 124 + k := ⟨i - 124, by omega⟩
    have : k < 4 := by omega
    interval_cases k <;> simp <;> decide

end Sys2Proof
end

