-- ==== Sys2Proof/Laws/Codes.lean ====
section
/-! SUPPORT. The codes and the lanes: a code and its reading are inverse, distinct results have distinct codes, and the
lanes of packed bytes are the bytes. -/

namespace Sys2Proof

@[simp] theorem StatusCode.ofBits_code (c : StatusCode) : StatusCode.ofBits c.code = c := by
  cases c <;> rfl

@[simp] theorem StatusCode.code_ofBits (v : BitVec 2) : (StatusCode.ofBits v).code = v := by
  revert v; decide

theorem StatusCode.ofBits_eq_on (v : BitVec 2) : StatusCode.ofBits v = .on ↔ v = 1 := by
  revert v; decide

@[simp] theorem Bits6.toBits_ofBits (v : BitVec 6) : (Bits6.ofBits v).toBits = v := by
  revert v; decide

@[simp] theorem Bits6.ofBits_toBits (b : Bits6) : Bits6.ofBits b.toBits = b := by
  rcases b with ⟨lt, rt, ap, ch, pl, tr⟩
  cases lt <;> cases rt <;> cases ap <;> cases ch <;> cases pl <;> cases tr <;> rfl

theorem prCode_injective {a b : PriorityResult} (h : prCode a = prCode b) : a = b := by
  rcases a with _ | a <;> rcases b with _ | b
  · rfl
  · cases b <;> simp [prCode, Category.code] at h
  · cases a <;> simp [prCode, Category.code] at h
  · cases a <;> cases b <;> simp_all [prCode, Category.code]

theorem Mode.code_eq_running (m : Mode) : m.code = 4 ↔ m = .running := by
  cases m <;> decide

theorem Status.code_injective {a b : Status} (h : a.code = b.code) : a = b := by
  cases a <;> cases b <;> simp_all [Status.code]

/-- Bit `j` of lane `k`. -/
theorem getLsbD_lane (b : BitVec 96) (k j : Nat) : (lane b k).getLsbD j = (decide (j < 8) && b.getLsbD (8 * k + j)) := by
  simp [lane]

/-- Bit `8k + j` of packed bytes is bit `j` of byte `k`. -/
theorem getLsbD_packLanes (l : List Byte) (k j : Nat) (hj : j < 8) (hk : k < 12) :
    (packLanes l).getLsbD (8 * k + j) = (l.getD k 0).getLsbD j := by
  induction l generalizing k with
  | nil => simp [packLanes]
  | cons x xs ih =>
    have h96 : 8 * k + j < 96 := by omega
    cases k with
    | zero =>
      have h8 : ¬ 8 * 0 + j ≥ 8 := by omega
      simp [packLanes, place, hj]
      intro; omega
    | succ k =>
      have e : 8 * (k + 1) + j - 8 = 8 * k + j := by omega
      have hx : x.getLsbD (8 * (k + 1) + j) = false := BitVec.getLsbD_of_ge _ _ (by omega)
      simp only [packLanes, place, BitVec.shiftLeft_zero, BitVec.getLsbD_or, BitVec.getLsbD_setWidth, BitVec.getLsbD_shiftLeft, h96, hx, e,
        ih k (by omega)]
      simp
      intro; omega

/-- Lane `k` of packed bytes is byte `k`. -/
theorem lane_packLanes (l : List Byte) (k : Nat) (hk : k < 12) : lane (packLanes l) k = l.getD k 0 := by
  apply BitVec.eq_of_getLsbD_eq
  intro j hj
  rw [getLsbD_lane, getLsbD_packLanes l k j hj hk]
  simp [hj]

/-- The twelve lanes of twelve packed bytes. -/
theorem lanes_packLanes (l : List Byte) (h : l.length = 12) : lanes (packLanes l) = l := by
  apply List.ext_getElem
  · simp [lanes, h]
  · intro k h1 h2
    simp only [lanes, List.getElem_map, List.getElem_range]
    rw [lane_packLanes l k (by omega)]
    simp [h2]

theorem length_lanes (b : BitVec 96) : (lanes b).length = 12 := by simp [lanes]

@[simp] theorem getD_lanes (b : BitVec 96) (k : Nat) (h : k < 12) : (lanes b).getD k 0 = lane b k := by
  simp [lanes, h]

end Sys2Proof
end

