-- ==== Sys2Proof/Laws/Codec.lean ====
section
/-! SUPPORT. The extractor, the checksum and the packet codec: the bits and the value of an extracted field, the XOR fold as a
parity, when a packet is accepted, and the bytes of the multi-byte fields. -/

namespace Sys2Proof.Machine
/-- When format A accepts, and what it reads. -/
theorem pktDecodeA_ok_iff (p : Params) (b : BitVec 96) (len : BitVec 4) (f : PktFields) :
    pktDecodeA p b len = .ok f ↔
      len = 12 ∧ lane b 0 = p.magic ∧ lane b 1 = p.version ∧ xorsum (lanes b) 11 = lane b 11 ∧
      (lane b 2).toNat ≤ 3 ∧ (lane b 3).toNat ≤ 3 ∧ f = fieldsA b := by
  unfold pktDecodeA
  split_ifs with h1 h2 h3 h4 h5 <;> simp only [Except.ok.injEq, false_iff]
  · exact fun h => h1 h.1
  · exact fun h => h2 h.2.1
  · exact fun h => h3 h.2.2.1
  · exact fun h => h4 h.2.2.2.1
  · intro h; omega
  · simp only [ne_eq, not_not] at h1 h2 h3 h4
    constructor
    · intro h; exact ⟨h1, h2, h3, h4, by omega, by omega, h.symm⟩
    · intro h; exact h.2.2.2.2.2.2.symm

/-- When format B accepts, and what it reads. -/
theorem pktDecodeB_ok_iff (p : Params) (b : BitVec 96) (len : BitVec 4) (f : PktFields) :
    pktDecodeB p b len = .ok f ↔ len = 5 ∧ f = fieldsB p b := by
  unfold pktDecodeB
  split_ifs with h1 <;> simp only [Except.ok.injEq, false_iff]
  · exact fun h => h1 h.1
  · simp only [ne_eq, not_not] at h1
    exact ⟨fun h => ⟨h1, h.symm⟩, fun h => h.2.symm⟩

theorem pktDecode_a {p : Params} (h : p.fmt = .a) (b : BitVec 96) (len : BitVec 4) :
    pktDecode p b len = pktDecodeA p b len := by
  simp [pktDecode, h]

theorem pktDecode_b {p : Params} (h : p.fmt = .b) (b : BitVec 96) (len : BitVec 4) :
    pktDecode p b len = pktDecodeB p b len := by
  simp [pktDecode, h]

/-- Bit `i` of four bytes joined. -/
theorem getLsbD_word32 (a b c d : Byte) (i : Nat) (hi : i < 32) :
    (word32 a b c d).getLsbD i =
      (if i < 8 then a.getLsbD i else if i < 16 then b.getLsbD (i - 8) else if i < 24 then c.getLsbD (i - 16)
       else d.getLsbD (i - 24)) := by
  simp only [word32, getLsbD_or', getLsbD_place]
  split_ifs with h1 h2 h3
  · have e1 : ¬ 8 ≤ i := by omega
    have e2 : ¬ 16 ≤ i := by omega
    have e3 : ¬ 24 ≤ i := by omega
    simp [hi, e1, e2, e3]
  · have e1 : 8 ≤ i := by omega
    have e2 : ¬ 16 ≤ i := by omega
    have e3 : ¬ 24 ≤ i := by omega
    simp [hi, e1, e2, e3]
  · have e1 : 8 ≤ i := by omega
    have e2 : 16 ≤ i := by omega
    have e3 : ¬ 24 ≤ i := by omega
    simp [hi, e1, e2, e3, BitVec.getLsbD_of_ge b (i - 8) (by omega)]
  · have e1 : 8 ≤ i := by omega
    have e2 : 16 ≤ i := by omega
    have e3 : 24 ≤ i := by omega
    simp [hi, e1, e2, e3, BitVec.getLsbD_of_ge b (i - 8) (by omega),
      BitVec.getLsbD_of_ge c (i - 16) (by omega)]

theorem word32_two_lt (a b : Byte) : (word32 a b 0 0).toNat < 2 ^ 16 := by
  apply Nat.lt_pow_two_of_testBit
  intro j hj
  rw [BitVec.testBit_toNat]
  by_cases h : j < 32
  · have e1 : ¬ j < 8 := by omega
    have e2 : ¬ j < 16 := by omega
    simp [getLsbD_word32 _ _ _ _ _ h, e1, e2]
  · exact BitVec.getLsbD_of_ge _ _ (by omega)

theorem getLsbD_byteOf (v : BitVec 32) (k j : Nat) :
    (byteOf v k).getLsbD j = (decide (j < 8) && v.getLsbD (8 * k + j)) := by
  simp [byteOf]

/-- A 32-bit field split into its bytes and joined again. -/
theorem word32_byteOf (v : BitVec 32) : word32 (byteOf v 0) (byteOf v 1) (byteOf v 2) (byteOf v 3) = v := by
  apply BitVec.eq_of_getLsbD_eq
  intro i hi
  rw [getLsbD_word32 _ _ _ _ _ hi]
  split_ifs with h1 h2 h3
  · simp only [getLsbD_byteOf, h1, decide_true, Bool.true_and, Nat.mul_zero, Nat.zero_add]
  · have e : 8 * 1 + (i - 8) = i := by omega
    have e' : i - 8 < 8 := by omega
    simp only [getLsbD_byteOf, e, e', decide_true, Bool.true_and]
  · have e : 8 * 2 + (i - 16) = i := by omega
    have e' : i - 16 < 8 := by omega
    simp only [getLsbD_byteOf, e, e', decide_true, Bool.true_and]
  · have e : 8 * 3 + (i - 24) = i := by omega
    have e' : i - 24 < 8 := by omega
    simp only [getLsbD_byteOf, e, e', decide_true, Bool.true_and]

theorem extract_toNat (be : BitVec 64) (start width : Nat) (h2 : width ≤ 64) :
    (extract be start width).toNat = be.toNat / 2 ^ (64 - start - width) % 2 ^ width := by
  have : 2 ^ width ≤ 2 ^ 64 := Nat.pow_le_pow_right (by decide) h2
  have h0 : 0 < 2 ^ width := by positivity
  simp only [extract, BitVec.toNat_and, BitVec.toNat_ushiftRight, BitVec.toNat_ofNat, Nat.shiftRight_eq_div_pow]
  rw [Nat.mod_eq_of_lt (show 2 ^ width - 1 < 2 ^ 64 by omega), Nat.and_two_pow_sub_one_eq_mod]

theorem getLsbD_extract (be : BitVec 64) (start width j : Nat) (h2 : width ≤ 64) :
    (extract be start width).getLsbD j = (decide (j < width) && be.getLsbD (64 - start - width + j)) := by
  simp only [← BitVec.testBit_toNat, extract_toNat be start width h2, Nat.testBit_mod_two_pow, Nat.testBit_div_two_pow]
  rw [Nat.add_comm]

theorem xorAll_append (a b : List Byte) : xorAll (a ++ b) = xorAll a ^^^ xorAll b := by
  induction a with
  | nil => simp [xorAll]
  | cons x xs ih =>
    simp only [xorAll, List.cons_append, List.foldr_cons] at ih ⊢
    rw [ih, BitVec.xor_assoc]

/-- The fold from the left is the fold from the right. -/
theorem foldl_xor_eq_xorAll (a : Byte) (l : List Byte) : l.foldl (fun acc x => acc ^^^ x) a = a ^^^ xorAll l := by
  induction l generalizing a with
  | nil => simp [xorAll]
  | cons x xs ih => simp only [List.foldl_cons, ih, xorAll, List.foldr_cons, BitVec.xor_assoc]

/-- A bit of the fold is the parity of that bit over the bytes. -/
theorem getLsbD_xorAll (l : List Byte) (j : Nat) :
    (xorAll l).getLsbD j = decide ((l.filter fun x => x.getLsbD j).length % 2 = 1) := by
  induction l with
  | nil => simp [xorAll]
  | cons x xs ih =>
    simp only [xorAll, List.foldr_cons, BitVec.getLsbD_xor] at ih ⊢
    rw [ih]
    cases hx : x.getLsbD j
    · simp [hx]
    · simp only [List.filter_cons, hx, if_true, List.length_cons]
      generalize (xs.filter _).length = n
      by_cases hn : n % 2 = 1
      · have : ¬ (n + 1) % 2 = 1 := by omega
        simp [hn, this]
      · have : (n + 1) % 2 = 1 := by omega
        simp [hn, this]

end Sys2Proof.Machine
end

