-- ==== Sys2Proof/Laws/State.lean ====
section
/-! SUPPORT. The small lemmas of the state: for each shared operation, what it leaves in each field. A proof cites these
(they are simp lemmas) and unfolds no record update. -/

namespace Sys2Proof.Machine

/-! #### respond -/

@[simp] theorem State.respond_params (s : State) (st : Status) (d : ResData) (e : List SurfEvent) : (s.respond st d e).params = s.params := rfl
@[simp] theorem State.respond_vs (s : State) (st : Status) (d : ResData) (e : List SurfEvent) : (s.respond st d e).vs = s.vs := rfl
@[simp] theorem State.respond_lv (s : State) (st : Status) (d : ResData) (e : List SurfEvent) : (s.respond st d e).lv = s.lv := rfl
@[simp] theorem State.respond_db (s : State) (st : Status) (d : ResData) (e : List SurfEvent) : (s.respond st d e).db = s.db := rfl
@[simp] theorem State.respond_tf (s : State) (st : Status) (d : ResData) (e : List SurfEvent) : (s.respond st d e).tf = s.tf := rfl
@[simp] theorem State.respond_mb (s : State) (st : Status) (d : ResData) (e : List SurfEvent) : (s.respond st d e).mb = s.mb := rfl
@[simp] theorem State.respond_ovr (s : State) (st : Status) (d : ResData) (e : List SurfEvent) : (s.respond st d e).ovr = s.ovr := rfl
@[simp] theorem State.respond_rxstat (s : State) (st : Status) (d : ResData) (e : List SurfEvent) : (s.respond st d e).rxstat = s.rxstat := rfl
@[simp] theorem State.respond_cfg (s : State) (st : Status) (d : ResData) (e : List SurfEvent) : (s.respond st d e).cfg = s.cfg := rfl
@[simp] theorem State.respond_mls (s : State) (st : Status) (d : ResData) (e : List SurfEvent) : (s.respond st d e).mls = s.mls := rfl
@[simp] theorem State.respond_pins (s : State) (st : Status) (d : ResData) (e : List SurfEvent) : (s.respond st d e).pins = s.pins := rfl
@[simp] theorem State.respond_rstHeld (s : State) (st : Status) (d : ResData) (e : List SurfEvent) : (s.respond st d e).rstHeld = s.rstHeld := rfl
@[simp] theorem State.respond_script (s : State) (st : Status) (d : ResData) (e : List SurfEvent) : (s.respond st d e).script = s.script := rfl
@[simp] theorem State.respond_answer (s : State) (st : Status) (d : ResData) (e : List SurfEvent) : (s.respond st d e).answer = some { status := st, data := d, statCfg := none } := rfl
@[simp] theorem State.respond_surf (s : State) (st : Status) (d : ResData) (e : List SurfEvent) : (s.respond st d e).surf = e := rfl
@[simp] theorem State.respond_draws (s : State) (st : Status) (d : ResData) (e : List SurfEvent) : (s.respond st d e).draws = s.draws := rfl

/-! #### raise -/

@[simp] theorem State.raise_params (s : State) (st : Status) : (s.raise st).params = s.params := rfl
@[simp] theorem State.raise_vs (s : State) (st : Status) : (s.raise st).vs = s.vs := rfl
@[simp] theorem State.raise_lv (s : State) (st : Status) : (s.raise st).lv = s.lv := rfl
@[simp] theorem State.raise_db (s : State) (st : Status) : (s.raise st).db = s.db := rfl
@[simp] theorem State.raise_tf (s : State) (st : Status) : (s.raise st).tf = s.tf := rfl
@[simp] theorem State.raise_mb (s : State) (st : Status) : (s.raise st).mb = s.mb := rfl
@[simp] theorem State.raise_ovr (s : State) (st : Status) : (s.raise st).ovr = s.ovr := rfl
@[simp] theorem State.raise_rxstat (s : State) (st : Status) : (s.raise st).rxstat = s.rxstat := rfl
@[simp] theorem State.raise_cfg (s : State) (st : Status) : (s.raise st).cfg = s.cfg := rfl
@[simp] theorem State.raise_mls (s : State) (st : Status) : (s.raise st).mls = s.mls := rfl
@[simp] theorem State.raise_pins (s : State) (st : Status) : (s.raise st).pins = s.pins := rfl
@[simp] theorem State.raise_rstHeld (s : State) (st : Status) : (s.raise st).rstHeld = s.rstHeld := rfl
@[simp] theorem State.raise_script (s : State) (st : Status) : (s.raise st).script = s.script := rfl
@[simp] theorem State.raise_answer (s : State) (st : Status) : (s.raise st).answer = some { status := st, data := 0, statCfg := none } := rfl
@[simp] theorem State.raise_surf (s : State) (st : Status) : (s.raise st).surf = [] := rfl
@[simp] theorem State.raise_draws (s : State) (st : Status) : (s.raise st).draws = s.draws := rfl

/-! #### answerBadOp -/

@[simp] theorem State.answerBadOp_params (s : State) : (s.answerBadOp).params = s.params := rfl
@[simp] theorem State.answerBadOp_vs (s : State) : (s.answerBadOp).vs = s.vs := rfl
@[simp] theorem State.answerBadOp_lv (s : State) : (s.answerBadOp).lv = s.lv := rfl
@[simp] theorem State.answerBadOp_db (s : State) : (s.answerBadOp).db = s.db := rfl
@[simp] theorem State.answerBadOp_tf (s : State) : (s.answerBadOp).tf = s.tf := rfl
@[simp] theorem State.answerBadOp_mb (s : State) : (s.answerBadOp).mb = s.mb := rfl
@[simp] theorem State.answerBadOp_ovr (s : State) : (s.answerBadOp).ovr = s.ovr := rfl
@[simp] theorem State.answerBadOp_rxstat (s : State) : (s.answerBadOp).rxstat = s.rxstat := rfl
@[simp] theorem State.answerBadOp_cfg (s : State) : (s.answerBadOp).cfg = s.cfg := rfl
@[simp] theorem State.answerBadOp_mls (s : State) : (s.answerBadOp).mls = s.mls := rfl
@[simp] theorem State.answerBadOp_pins (s : State) : (s.answerBadOp).pins = s.pins := rfl
@[simp] theorem State.answerBadOp_rstHeld (s : State) : (s.answerBadOp).rstHeld = s.rstHeld := rfl
@[simp] theorem State.answerBadOp_script (s : State) : (s.answerBadOp).script = s.script := rfl
@[simp] theorem State.answerBadOp_answer (s : State) : (s.answerBadOp).answer = some { status := .badOp, data := 0, statCfg := none } := rfl
@[simp] theorem State.answerBadOp_surf (s : State) : (s.answerBadOp).surf = [] := rfl
@[simp] theorem State.answerBadOp_draws (s : State) : (s.answerBadOp).draws = s.draws := rfl

/-! #### mbPublish -/

@[simp] theorem State.mbPublish_params (s : State) (b : BitVec 96) (n : BitVec 4) (t : Time) (qv : Bool) (q : Byte) : (s.mbPublish b n t qv q).params = s.params := rfl
@[simp] theorem State.mbPublish_vs (s : State) (b : BitVec 96) (n : BitVec 4) (t : Time) (qv : Bool) (q : Byte) : (s.mbPublish b n t qv q).vs = s.vs := rfl
@[simp] theorem State.mbPublish_lv (s : State) (b : BitVec 96) (n : BitVec 4) (t : Time) (qv : Bool) (q : Byte) : (s.mbPublish b n t qv q).lv = s.lv := rfl
@[simp] theorem State.mbPublish_db (s : State) (b : BitVec 96) (n : BitVec 4) (t : Time) (qv : Bool) (q : Byte) : (s.mbPublish b n t qv q).db = s.db := rfl
@[simp] theorem State.mbPublish_tf (s : State) (b : BitVec 96) (n : BitVec 4) (t : Time) (qv : Bool) (q : Byte) : (s.mbPublish b n t qv q).tf = s.tf := rfl
@[simp] theorem State.mbPublish_mb (s : State) (b : BitVec 96) (n : BitVec 4) (t : Time) (qv : Bool) (q : Byte) : (s.mbPublish b n t qv q).mb = { fresh := true, len := n, data := b, rxTime := t, qValid := qv, q := q } := rfl
@[simp] theorem State.mbPublish_ovr (s : State) (b : BitVec 96) (n : BitVec 4) (t : Time) (qv : Bool) (q : Byte) : (s.mbPublish b n t qv q).ovr = s.ovr := rfl
@[simp] theorem State.mbPublish_rxstat (s : State) (b : BitVec 96) (n : BitVec 4) (t : Time) (qv : Bool) (q : Byte) : (s.mbPublish b n t qv q).rxstat = s.rxstat := rfl
@[simp] theorem State.mbPublish_cfg (s : State) (b : BitVec 96) (n : BitVec 4) (t : Time) (qv : Bool) (q : Byte) : (s.mbPublish b n t qv q).cfg = s.cfg := rfl
@[simp] theorem State.mbPublish_mls (s : State) (b : BitVec 96) (n : BitVec 4) (t : Time) (qv : Bool) (q : Byte) : (s.mbPublish b n t qv q).mls = s.mls := rfl
@[simp] theorem State.mbPublish_pins (s : State) (b : BitVec 96) (n : BitVec 4) (t : Time) (qv : Bool) (q : Byte) : (s.mbPublish b n t qv q).pins = s.pins := rfl
@[simp] theorem State.mbPublish_rstHeld (s : State) (b : BitVec 96) (n : BitVec 4) (t : Time) (qv : Bool) (q : Byte) : (s.mbPublish b n t qv q).rstHeld = s.rstHeld := rfl
@[simp] theorem State.mbPublish_script (s : State) (b : BitVec 96) (n : BitVec 4) (t : Time) (qv : Bool) (q : Byte) : (s.mbPublish b n t qv q).script = s.script := rfl
@[simp] theorem State.mbPublish_answer (s : State) (b : BitVec 96) (n : BitVec 4) (t : Time) (qv : Bool) (q : Byte) : (s.mbPublish b n t qv q).answer = s.answer := rfl
@[simp] theorem State.mbPublish_surf (s : State) (b : BitVec 96) (n : BitVec 4) (t : Time) (qv : Bool) (q : Byte) : (s.mbPublish b n t qv q).surf = s.surf := rfl
@[simp] theorem State.mbPublish_draws (s : State) (b : BitVec 96) (n : BitVec 4) (t : Time) (qv : Bool) (q : Byte) : (s.mbPublish b n t qv q).draws = s.draws := rfl

/-! #### mbTake -/

@[simp] theorem State.mbTake_params (s : State) : (s.mbTake).params = s.params := rfl
@[simp] theorem State.mbTake_vs (s : State) : (s.mbTake).vs = s.vs := rfl
@[simp] theorem State.mbTake_lv (s : State) : (s.mbTake).lv = s.lv := rfl
@[simp] theorem State.mbTake_db (s : State) : (s.mbTake).db = s.db := rfl
@[simp] theorem State.mbTake_tf (s : State) : (s.mbTake).tf = s.tf := rfl
@[simp] theorem State.mbTake_mb (s : State) : (s.mbTake).mb = { s.mb with fresh := false } := rfl
@[simp] theorem State.mbTake_ovr (s : State) : (s.mbTake).ovr = s.ovr := rfl
@[simp] theorem State.mbTake_rxstat (s : State) : (s.mbTake).rxstat = s.rxstat := rfl
@[simp] theorem State.mbTake_cfg (s : State) : (s.mbTake).cfg = s.cfg := rfl
@[simp] theorem State.mbTake_mls (s : State) : (s.mbTake).mls = s.mls := rfl
@[simp] theorem State.mbTake_pins (s : State) : (s.mbTake).pins = s.pins := rfl
@[simp] theorem State.mbTake_rstHeld (s : State) : (s.mbTake).rstHeld = s.rstHeld := rfl
@[simp] theorem State.mbTake_script (s : State) : (s.mbTake).script = s.script := rfl
@[simp] theorem State.mbTake_answer (s : State) : (s.mbTake).answer = s.answer := rfl
@[simp] theorem State.mbTake_surf (s : State) : (s.mbTake).surf = s.surf := rfl
@[simp] theorem State.mbTake_draws (s : State) : (s.mbTake).draws = s.draws := rfl

/-! #### applyPacket -/

@[simp] theorem State.applyPacket_params (s : State) (f : PktFields) (m : Mailbox) : (s.applyPacket f m).params = s.params := rfl
@[simp] theorem State.applyPacket_vs (s : State) (f : PktFields) (m : Mailbox) : (s.applyPacket f m).vs = { bits6 := f.bits6, ls := f.left, rs := f.right, flags := f.flags } := rfl
@[simp] theorem State.applyPacket_lv (s : State) (f : PktFields) (m : Mailbox) : (s.applyPacket f m).lv = { valid := true, lastRx := m.rxTime, lastSeq := f.seq, qValid := m.qValid, q := m.q, senderClock := f.clock } := rfl
@[simp] theorem State.applyPacket_db (s : State) (f : PktFields) (m : Mailbox) : (s.applyPacket f m).db = s.db := rfl
@[simp] theorem State.applyPacket_tf (s : State) (f : PktFields) (m : Mailbox) : (s.applyPacket f m).tf = s.tf := rfl
@[simp] theorem State.applyPacket_mb (s : State) (f : PktFields) (m : Mailbox) : (s.applyPacket f m).mb = s.mb := rfl
@[simp] theorem State.applyPacket_ovr (s : State) (f : PktFields) (m : Mailbox) : (s.applyPacket f m).ovr = s.ovr := rfl
@[simp] theorem State.applyPacket_rxstat (s : State) (f : PktFields) (m : Mailbox) : (s.applyPacket f m).rxstat = s.rxstat := rfl
@[simp] theorem State.applyPacket_cfg (s : State) (f : PktFields) (m : Mailbox) : (s.applyPacket f m).cfg = s.cfg := rfl
@[simp] theorem State.applyPacket_mls (s : State) (f : PktFields) (m : Mailbox) : (s.applyPacket f m).mls = s.mls := rfl
@[simp] theorem State.applyPacket_pins (s : State) (f : PktFields) (m : Mailbox) : (s.applyPacket f m).pins = s.pins := rfl
@[simp] theorem State.applyPacket_rstHeld (s : State) (f : PktFields) (m : Mailbox) : (s.applyPacket f m).rstHeld = s.rstHeld := rfl
@[simp] theorem State.applyPacket_script (s : State) (f : PktFields) (m : Mailbox) : (s.applyPacket f m).script = s.script := rfl
@[simp] theorem State.applyPacket_answer (s : State) (f : PktFields) (m : Mailbox) : (s.applyPacket f m).answer = s.answer := rfl
@[simp] theorem State.applyPacket_surf (s : State) (f : PktFields) (m : Mailbox) : (s.applyPacket f m).surf = s.surf := rfl
@[simp] theorem State.applyPacket_draws (s : State) (f : PktFields) (m : Mailbox) : (s.applyPacket f m).draws = s.draws := rfl

/-! #### debounceBoth -/

@[simp] theorem State.debounceBoth_params (s : State) : (s.debounceBoth).params = s.params := rfl
@[simp] theorem State.debounceBoth_vs (s : State) : (s.debounceBoth).vs = s.vs := rfl
@[simp] theorem State.debounceBoth_lv (s : State) : (s.debounceBoth).lv = s.lv := rfl
@[simp] theorem State.debounceBoth_db (s : State) : (s.debounceBoth).db = { left := debounceStep s.cfg.hold s.db.left (s.sample .left) s.now, right := debounceStep s.cfg.hold s.db.right (s.sample .right) s.now } := rfl
@[simp] theorem State.debounceBoth_tf (s : State) : (s.debounceBoth).tf = s.tf := rfl
@[simp] theorem State.debounceBoth_mb (s : State) : (s.debounceBoth).mb = s.mb := rfl
@[simp] theorem State.debounceBoth_ovr (s : State) : (s.debounceBoth).ovr = s.ovr := rfl
@[simp] theorem State.debounceBoth_rxstat (s : State) : (s.debounceBoth).rxstat = s.rxstat := rfl
@[simp] theorem State.debounceBoth_cfg (s : State) : (s.debounceBoth).cfg = s.cfg := rfl
@[simp] theorem State.debounceBoth_mls (s : State) : (s.debounceBoth).mls = s.mls := rfl
@[simp] theorem State.debounceBoth_pins (s : State) : (s.debounceBoth).pins = s.pins := rfl
@[simp] theorem State.debounceBoth_rstHeld (s : State) : (s.debounceBoth).rstHeld = s.rstHeld := rfl
@[simp] theorem State.debounceBoth_script (s : State) : (s.debounceBoth).script = s.script := rfl
@[simp] theorem State.debounceBoth_answer (s : State) : (s.debounceBoth).answer = s.answer := rfl
@[simp] theorem State.debounceBoth_surf (s : State) : (s.debounceBoth).surf = s.surf := rfl
@[simp] theorem State.debounceBoth_draws (s : State) : (s.debounceBoth).draws = s.draws := rfl

/-! #### emitFrame -/

@[simp] theorem State.emitFrame_params (s : State) (st : Status) : (s.emitFrame st).params = s.params := rfl
@[simp] theorem State.emitFrame_vs (s : State) (st : Status) : (s.emitFrame st).vs = s.vs := rfl
@[simp] theorem State.emitFrame_lv (s : State) (st : Status) : (s.emitFrame st).lv = s.lv := rfl
@[simp] theorem State.emitFrame_db (s : State) (st : Status) : (s.emitFrame st).db = s.db := rfl
@[simp] theorem State.emitFrame_tf (s : State) (st : Status) : (s.emitFrame st).tf = s.tf := rfl
@[simp] theorem State.emitFrame_mb (s : State) (st : Status) : (s.emitFrame st).mb = s.mb := rfl
@[simp] theorem State.emitFrame_ovr (s : State) (st : Status) : (s.emitFrame st).ovr = s.ovr := rfl
@[simp] theorem State.emitFrame_rxstat (s : State) (st : Status) : (s.emitFrame st).rxstat = s.rxstat := rfl
@[simp] theorem State.emitFrame_cfg (s : State) (st : Status) : (s.emitFrame st).cfg = s.cfg := rfl
@[simp] theorem State.emitFrame_mls (s : State) (st : Status) : (s.emitFrame st).mls = s.mls := rfl
@[simp] theorem State.emitFrame_pins (s : State) (st : Status) : (s.emitFrame st).pins = s.pins := rfl
@[simp] theorem State.emitFrame_rstHeld (s : State) (st : Status) : (s.emitFrame st).rstHeld = s.rstHeld := rfl
@[simp] theorem State.emitFrame_script (s : State) (st : Status) : (s.emitFrame st).script = s.script := rfl
@[simp] theorem State.emitFrame_answer (s : State) (st : Status) : (s.emitFrame st).answer = some { status := .ok, data := tickData s st, statCfg := none } := rfl
@[simp] theorem State.emitFrame_surf (s : State) (st : Status) : (s.emitFrame st).surf = s.frameEvents := rfl
@[simp] theorem State.emitFrame_draws (s : State) (st : Status) : (s.emitFrame st).draws = s.draws + s.drawsOfTick := rfl

/-! #### modeOnPacket -/

@[simp] theorem State.modeOnPacket_params (s : State) (f : PktFields) (m : Mailbox) : (s.modeOnPacket f m).params = s.params := by
  unfold State.modeOnPacket; split <;> rfl
@[simp] theorem State.modeOnPacket_vs (s : State) (f : PktFields) (m : Mailbox) : (s.modeOnPacket f m).vs = s.vs := by
  unfold State.modeOnPacket; split <;> rfl
@[simp] theorem State.modeOnPacket_lv (s : State) (f : PktFields) (m : Mailbox) : (s.modeOnPacket f m).lv = s.lv := by
  unfold State.modeOnPacket; split <;> rfl
@[simp] theorem State.modeOnPacket_db (s : State) (f : PktFields) (m : Mailbox) : (s.modeOnPacket f m).db = s.db := by
  unfold State.modeOnPacket; split <;> rfl
@[simp] theorem State.modeOnPacket_tf (s : State) (f : PktFields) (m : Mailbox) : (s.modeOnPacket f m).tf = s.tf := by
  unfold State.modeOnPacket; split <;> rfl
@[simp] theorem State.modeOnPacket_mb (s : State) (f : PktFields) (m : Mailbox) : (s.modeOnPacket f m).mb = s.mb := by
  unfold State.modeOnPacket; split <;> rfl
@[simp] theorem State.modeOnPacket_ovr (s : State) (f : PktFields) (m : Mailbox) : (s.modeOnPacket f m).ovr = s.ovr := by
  unfold State.modeOnPacket; split <;> rfl
@[simp] theorem State.modeOnPacket_rxstat (s : State) (f : PktFields) (m : Mailbox) : (s.modeOnPacket f m).rxstat = s.rxstat := by
  unfold State.modeOnPacket; split <;> rfl
@[simp] theorem State.modeOnPacket_cfg (s : State) (f : PktFields) (m : Mailbox) : (s.modeOnPacket f m).cfg = s.cfg := by
  unfold State.modeOnPacket; split <;> rfl
@[simp] theorem State.modeOnPacket_pins (s : State) (f : PktFields) (m : Mailbox) : (s.modeOnPacket f m).pins = s.pins := by
  unfold State.modeOnPacket; split <;> rfl
@[simp] theorem State.modeOnPacket_rstHeld (s : State) (f : PktFields) (m : Mailbox) : (s.modeOnPacket f m).rstHeld = s.rstHeld := by
  unfold State.modeOnPacket; split <;> rfl
@[simp] theorem State.modeOnPacket_script (s : State) (f : PktFields) (m : Mailbox) : (s.modeOnPacket f m).script = s.script := by
  unfold State.modeOnPacket; split <;> rfl
@[simp] theorem State.modeOnPacket_answer (s : State) (f : PktFields) (m : Mailbox) : (s.modeOnPacket f m).answer = s.answer := by
  unfold State.modeOnPacket; split <;> rfl
@[simp] theorem State.modeOnPacket_surf (s : State) (f : PktFields) (m : Mailbox) : (s.modeOnPacket f m).surf = s.surf := by
  unfold State.modeOnPacket; split <;> rfl
@[simp] theorem State.modeOnPacket_draws (s : State) (f : PktFields) (m : Mailbox) : (s.modeOnPacket f m).draws = s.draws := by
  unfold State.modeOnPacket; split <;> rfl

/-! #### modeOnTick -/

@[simp] theorem State.modeOnTick_params (s : State) : (s.modeOnTick).params = s.params := by
  unfold State.modeOnTick; split <;> rfl
@[simp] theorem State.modeOnTick_vs (s : State) : (s.modeOnTick).vs = s.vs := by
  unfold State.modeOnTick; split <;> rfl
@[simp] theorem State.modeOnTick_lv (s : State) : (s.modeOnTick).lv = s.lv := by
  unfold State.modeOnTick; split <;> rfl
@[simp] theorem State.modeOnTick_db (s : State) : (s.modeOnTick).db = s.db := by
  unfold State.modeOnTick; split <;> rfl
@[simp] theorem State.modeOnTick_tf (s : State) : (s.modeOnTick).tf = s.tf := by
  unfold State.modeOnTick; split <;> rfl
@[simp] theorem State.modeOnTick_mb (s : State) : (s.modeOnTick).mb = s.mb := by
  unfold State.modeOnTick; split <;> rfl
@[simp] theorem State.modeOnTick_ovr (s : State) : (s.modeOnTick).ovr = s.ovr := by
  unfold State.modeOnTick; split <;> rfl
@[simp] theorem State.modeOnTick_rxstat (s : State) : (s.modeOnTick).rxstat = s.rxstat := by
  unfold State.modeOnTick; split <;> rfl
@[simp] theorem State.modeOnTick_cfg (s : State) : (s.modeOnTick).cfg = s.cfg := by
  unfold State.modeOnTick; split <;> rfl
@[simp] theorem State.modeOnTick_pins (s : State) : (s.modeOnTick).pins = s.pins := by
  unfold State.modeOnTick; split <;> rfl
@[simp] theorem State.modeOnTick_rstHeld (s : State) : (s.modeOnTick).rstHeld = s.rstHeld := by
  unfold State.modeOnTick; split <;> rfl
@[simp] theorem State.modeOnTick_script (s : State) : (s.modeOnTick).script = s.script := by
  unfold State.modeOnTick; split <;> rfl
@[simp] theorem State.modeOnTick_answer (s : State) : (s.modeOnTick).answer = s.answer := by
  unfold State.modeOnTick; split <;> rfl
@[simp] theorem State.modeOnTick_surf (s : State) : (s.modeOnTick).surf = s.surf := by
  unfold State.modeOnTick; split <;> rfl
@[simp] theorem State.modeOnTick_draws (s : State) : (s.modeOnTick).draws = s.draws := by
  unfold State.modeOnTick; split <;> rfl

/-! #### reportTransport -/

@[simp] theorem State.reportTransport_params (s : State) (ok : Bool) : (s.reportTransport ok).params = s.params := by
  unfold State.reportTransport; split <;> rfl
@[simp] theorem State.reportTransport_vs (s : State) (ok : Bool) : (s.reportTransport ok).vs = s.vs := by
  unfold State.reportTransport; split <;> rfl
@[simp] theorem State.reportTransport_lv (s : State) (ok : Bool) : (s.reportTransport ok).lv = s.lv := by
  unfold State.reportTransport; split <;> rfl
@[simp] theorem State.reportTransport_db (s : State) (ok : Bool) : (s.reportTransport ok).db = s.db := by
  unfold State.reportTransport; split <;> rfl
@[simp] theorem State.reportTransport_tf (s : State) (ok : Bool) : (s.reportTransport ok).tf = s.tf := by
  unfold State.reportTransport; split <;> rfl
@[simp] theorem State.reportTransport_mb (s : State) (ok : Bool) : (s.reportTransport ok).mb = s.mb := by
  unfold State.reportTransport; split <;> rfl
@[simp] theorem State.reportTransport_ovr (s : State) (ok : Bool) : (s.reportTransport ok).ovr = s.ovr := by
  unfold State.reportTransport; split <;> rfl
@[simp] theorem State.reportTransport_rxstat (s : State) (ok : Bool) : (s.reportTransport ok).rxstat = s.rxstat := by
  unfold State.reportTransport; split <;> rfl
@[simp] theorem State.reportTransport_cfg (s : State) (ok : Bool) : (s.reportTransport ok).cfg = s.cfg := by
  unfold State.reportTransport; split <;> rfl
@[simp] theorem State.reportTransport_pins (s : State) (ok : Bool) : (s.reportTransport ok).pins = s.pins := by
  unfold State.reportTransport; split <;> rfl
@[simp] theorem State.reportTransport_rstHeld (s : State) (ok : Bool) : (s.reportTransport ok).rstHeld = s.rstHeld := by
  unfold State.reportTransport; split <;> rfl
@[simp] theorem State.reportTransport_script (s : State) (ok : Bool) : (s.reportTransport ok).script = s.script := by
  unfold State.reportTransport; split <;> rfl
@[simp] theorem State.reportTransport_answer (s : State) (ok : Bool) : (s.reportTransport ok).answer = s.answer := by
  unfold State.reportTransport; split <;> rfl
@[simp] theorem State.reportTransport_surf (s : State) (ok : Bool) : (s.reportTransport ok).surf = s.surf := by
  unfold State.reportTransport; split <;> rfl
@[simp] theorem State.reportTransport_draws (s : State) (ok : Bool) : (s.reportTransport ok).draws = s.draws := by
  unfold State.reportTransport; split <;> rfl

/-! #### linkLoss -/

@[simp] theorem State.linkLoss_params (s : State) : (s.linkLoss).params = s.params := by
  unfold State.linkLoss; split <;> rfl
@[simp] theorem State.linkLoss_lv (s : State) : (s.linkLoss).lv = s.lv := by
  unfold State.linkLoss; split <;> rfl
@[simp] theorem State.linkLoss_db (s : State) : (s.linkLoss).db = s.db := by
  unfold State.linkLoss; split <;> rfl
@[simp] theorem State.linkLoss_tf (s : State) : (s.linkLoss).tf = s.tf := by
  unfold State.linkLoss; split <;> rfl
@[simp] theorem State.linkLoss_mb (s : State) : (s.linkLoss).mb = s.mb := by
  unfold State.linkLoss; split <;> rfl
@[simp] theorem State.linkLoss_ovr (s : State) : (s.linkLoss).ovr = s.ovr := by
  unfold State.linkLoss; split <;> rfl
@[simp] theorem State.linkLoss_rxstat (s : State) : (s.linkLoss).rxstat = s.rxstat := by
  unfold State.linkLoss; split <;> rfl
@[simp] theorem State.linkLoss_cfg (s : State) : (s.linkLoss).cfg = s.cfg := by
  unfold State.linkLoss; split <;> rfl
@[simp] theorem State.linkLoss_mls (s : State) : (s.linkLoss).mls = s.mls := by
  unfold State.linkLoss; split <;> rfl
@[simp] theorem State.linkLoss_pins (s : State) : (s.linkLoss).pins = s.pins := by
  unfold State.linkLoss; split <;> rfl
@[simp] theorem State.linkLoss_rstHeld (s : State) : (s.linkLoss).rstHeld = s.rstHeld := by
  unfold State.linkLoss; split <;> rfl
@[simp] theorem State.linkLoss_script (s : State) : (s.linkLoss).script = s.script := by
  unfold State.linkLoss; split <;> rfl
@[simp] theorem State.linkLoss_answer (s : State) : (s.linkLoss).answer = s.answer := by
  unfold State.linkLoss; split <;> rfl
@[simp] theorem State.linkLoss_surf (s : State) : (s.linkLoss).surf = s.surf := by
  unfold State.linkLoss; split <;> rfl
@[simp] theorem State.linkLoss_draws (s : State) : (s.linkLoss).draws = s.draws := by
  unfold State.linkLoss; split <;> rfl

/-! #### advancePins -/

@[simp] theorem State.advancePins_params (s : State) : (s.advancePins).params = s.params := by
  unfold State.advancePins; split <;> rfl
@[simp] theorem State.advancePins_vs (s : State) : (s.advancePins).vs = s.vs := by
  unfold State.advancePins; split <;> rfl
@[simp] theorem State.advancePins_lv (s : State) : (s.advancePins).lv = s.lv := by
  unfold State.advancePins; split <;> rfl
@[simp] theorem State.advancePins_db (s : State) : (s.advancePins).db = s.db := by
  unfold State.advancePins; split <;> rfl
@[simp] theorem State.advancePins_tf (s : State) : (s.advancePins).tf = s.tf := by
  unfold State.advancePins; split <;> rfl
@[simp] theorem State.advancePins_mb (s : State) : (s.advancePins).mb = s.mb := by
  unfold State.advancePins; split <;> rfl
@[simp] theorem State.advancePins_ovr (s : State) : (s.advancePins).ovr = s.ovr := by
  unfold State.advancePins; split <;> rfl
@[simp] theorem State.advancePins_rxstat (s : State) : (s.advancePins).rxstat = s.rxstat := by
  unfold State.advancePins; split <;> rfl
@[simp] theorem State.advancePins_cfg (s : State) : (s.advancePins).cfg = s.cfg := by
  unfold State.advancePins; split <;> rfl
@[simp] theorem State.advancePins_mls (s : State) : (s.advancePins).mls = s.mls := by
  unfold State.advancePins; split <;> rfl
@[simp] theorem State.advancePins_rstHeld (s : State) : (s.advancePins).rstHeld = s.rstHeld := by
  unfold State.advancePins; split <;> rfl
@[simp] theorem State.advancePins_answer (s : State) : (s.advancePins).answer = s.answer := by
  unfold State.advancePins; split <;> rfl
@[simp] theorem State.advancePins_surf (s : State) : (s.advancePins).surf = s.surf := by
  unfold State.advancePins; split <;> rfl
@[simp] theorem State.advancePins_draws (s : State) : (s.advancePins).draws = s.draws := by
  unfold State.advancePins; split <;> rfl

/-! #### tickState: sub-steps 2 to 6 -/

@[simp] theorem State.tickState_params (s : State) : s.tickState.params = s.params := by
  simp [State.tickState]
@[simp] theorem State.tickState_lv (s : State) : s.tickState.lv = s.lv := by
  simp [State.tickState]
@[simp] theorem State.tickState_tf (s : State) : s.tickState.tf = s.now := by
  simp [State.tickState]
@[simp] theorem State.tickState_mb (s : State) : s.tickState.mb = s.mb := by
  simp [State.tickState]
@[simp] theorem State.tickState_ovr (s : State) : s.tickState.ovr = s.ovr := by
  simp [State.tickState]
@[simp] theorem State.tickState_rxstat (s : State) : s.tickState.rxstat = s.rxstat := by
  simp [State.tickState]
@[simp] theorem State.tickState_cfg (s : State) : s.tickState.cfg = s.cfg := by
  simp [State.tickState]
@[simp] theorem State.tickState_pins (s : State) : s.tickState.pins = s.pins := by
  simp [State.tickState]
@[simp] theorem State.tickState_rstHeld (s : State) : s.tickState.rstHeld = s.rstHeld := by
  simp [State.tickState]
@[simp] theorem State.tickState_script (s : State) : s.tickState.script = s.script := by
  simp [State.tickState]
@[simp] theorem State.tickState_answer (s : State) : s.tickState.answer = s.answer := by
  simp [State.tickState]
@[simp] theorem State.tickState_surf (s : State) : s.tickState.surf = s.surf := by
  simp [State.tickState]
@[simp] theorem State.tickState_draws (s : State) : s.tickState.draws = s.draws := by
  simp [State.tickState]

/-! #### packetStep: the packet sub-step -/

@[simp] theorem State.packetStep_post_params (s : State) : s.packetStep.post.params = s.params := by
  unfold State.packetStep; split
  · split <;> simp
  · simp
@[simp] theorem State.packetStep_post_db (s : State) : s.packetStep.post.db = s.db := by
  unfold State.packetStep; split
  · split <;> simp
  · simp
@[simp] theorem State.packetStep_post_tf (s : State) : s.packetStep.post.tf = s.tf := by
  unfold State.packetStep; split
  · split <;> simp
  · simp
@[simp] theorem State.packetStep_post_ovr (s : State) : s.packetStep.post.ovr = s.ovr := by
  unfold State.packetStep; split
  · split <;> simp
  · simp
@[simp] theorem State.packetStep_post_cfg (s : State) : s.packetStep.post.cfg = s.cfg := by
  unfold State.packetStep; split
  · split <;> simp
  · simp
@[simp] theorem State.packetStep_post_pins (s : State) : s.packetStep.post.pins = s.pins := by
  unfold State.packetStep; split
  · split <;> simp
  · simp
@[simp] theorem State.packetStep_post_rstHeld (s : State) : s.packetStep.post.rstHeld = s.rstHeld := by
  unfold State.packetStep; split
  · split <;> simp
  · simp
@[simp] theorem State.packetStep_post_script (s : State) : s.packetStep.post.script = s.script := by
  unfold State.packetStep; split
  · split <;> simp
  · simp
@[simp] theorem State.packetStep_post_answer (s : State) : s.packetStep.post.answer = s.answer := by
  unfold State.packetStep; split
  · split <;> simp
  · simp
@[simp] theorem State.packetStep_post_surf (s : State) : s.packetStep.post.surf = s.surf := by
  unfold State.packetStep; split
  · split <;> simp
  · simp
@[simp] theorem State.packetStep_post_draws (s : State) : s.packetStep.post.draws = s.draws := by
  unfold State.packetStep; split
  · split <;> simp
  · simp
@[simp] theorem State.packetStep_post_mb (s : State) : s.packetStep.post.mb = { s.mb with fresh := false } := by
  unfold State.packetStep; split
  · split <;> simp
  · simp

/-! #### afterPacket: the gate and what follows it -/

@[simp] theorem State.afterPacket_params (s : State) (st : Status) : (s.afterPacket st).params = s.params := by
  unfold State.afterPacket; split <;> simp
@[simp] theorem State.afterPacket_lv (s : State) (st : Status) : (s.afterPacket st).lv = s.lv := by
  unfold State.afterPacket; split <;> simp
@[simp] theorem State.afterPacket_mb (s : State) (st : Status) : (s.afterPacket st).mb = s.mb := by
  unfold State.afterPacket; split <;> simp
@[simp] theorem State.afterPacket_ovr (s : State) (st : Status) : (s.afterPacket st).ovr = s.ovr := by
  unfold State.afterPacket; split <;> simp
@[simp] theorem State.afterPacket_rxstat (s : State) (st : Status) : (s.afterPacket st).rxstat = s.rxstat := by
  unfold State.afterPacket; split <;> simp
@[simp] theorem State.afterPacket_cfg (s : State) (st : Status) : (s.afterPacket st).cfg = s.cfg := by
  unfold State.afterPacket; split <;> simp
@[simp] theorem State.afterPacket_pins (s : State) (st : Status) : (s.afterPacket st).pins = s.pins := by
  unfold State.afterPacket; split <;> simp
@[simp] theorem State.afterPacket_rstHeld (s : State) (st : Status) : (s.afterPacket st).rstHeld = s.rstHeld := by
  unfold State.afterPacket; split <;> simp
@[simp] theorem State.afterPacket_script (s : State) (st : Status) : (s.afterPacket st).script = s.script := by
  unfold State.afterPacket; split <;> simp

/-! #### reset, holding in reset, idling -/

@[simp] theorem State.releaseReset_params (s : State) : s.releaseReset.params = s.params := rfl
@[simp] theorem State.releaseReset_cfg (s : State) : s.releaseReset.cfg = s.pins.cfgPort := rfl
@[simp] theorem State.releaseReset_tf (s : State) : s.releaseReset.tf = s.pins.now := rfl
@[simp] theorem State.releaseReset_pins (s : State) : s.releaseReset.pins = s.pins := rfl
@[simp] theorem State.releaseReset_script (s : State) : s.releaseReset.script = s.script := rfl
@[simp] theorem State.releaseReset_draws (s : State) : s.releaseReset.draws = s.draws := rfl
@[simp] theorem State.holdInReset_params (s : State) : s.holdInReset.params = s.params := by
  simp [State.holdInReset]
@[simp] theorem State.idle_params (s : State) : s.idle.params = s.params := by
  simp [State.idle]

end Sys2Proof.Machine
end

