-- ==== Sys2Proof/Laws/Ops.lean ====
section
/-! SUPPORT. One lemma for each shared operation that says everything it can do, and the step's own cases. -/

namespace Sys2Proof.Machine

/-- Unsigned comparison of an elapsed time is comparison of the wrapped difference. -/
theorem elapsed_toNat (a b : Time) : (elapsed a b).toNat = (a - b).toNat := rfl

theorem alive_iff (s : State) (t : Time) :
    s.alive t = true ↔ s.lv.valid = true ∧ (t - s.lv.lastRx).toNat ≤ s.cfg.deadWindow.toNat := by
  simp [State.alive, elapsed, BitVec.le_def]

theorem gateOpen_iff (s : State) : s.gateOpen = true ↔ s.cfg.framePeriod.toNat ≤ (s.pins.now - s.tf).toNat := by
  simp [State.gateOpen, elapsed, State.now, BitVec.le_def]

/-- The packet sub-step: no fresh packet, a rejected one, or an accepted one. -/
theorem packetStep_cases (s : State) :
    (s.mb.fresh = false ∧ s.packetStep = { status := .noPkt, data := 0, post := s.mbTake }) ∨
    (s.mb.fresh = true ∧ ∃ r, pktDecode s.params s.mb.data s.mb.len = .error r ∧
      s.packetStep = { status := r.status, data := 0, post := { s.mbTake with rxstat := r.status } }) ∨
    (s.mb.fresh = true ∧ ∃ f, pktDecode s.params s.mb.data s.mb.len = .ok f ∧
      s.packetStep =
        { status := .ok
          data := pollData s.params f s.lv
          post := (({ s.mbTake with rxstat := .ok } : State).applyPacket f s.mb).modeOnPacket f s.mb }) := by
  unfold State.packetStep
  cases hf : s.mb.fresh
  · exact .inl ⟨rfl, by simp⟩
  · cases hd : pktDecode s.params s.mb.data s.mb.len with
    | error r => exact .inr (.inl ⟨rfl, r, rfl, by simp⟩)
    | ok f => exact .inr (.inr ⟨rfl, f, rfl, by simp⟩)

/-- With no fresh packet the sub-step changes nothing. -/
theorem packetStep_of_not_fresh (s : State) (h : s.mb.fresh = false) :
    s.packetStep = { status := .noPkt, data := 0, post := s } := by
  have e : s.mbTake = s := by
    rcases s with ⟨_, _, _, _, _, mb⟩
    rcases mb with ⟨_⟩
    simp_all [State.mbTake]
  simp [State.packetStep, h, e]

theorem packetStep_status_isReceive (s : State) : Status.isReceive s.packetStep.status = true := by
  rcases packetStep_cases s with ⟨_, h⟩ | ⟨_, r, _, h⟩ | ⟨_, f, _, h⟩ <;> rw [h] <;> try rfl
  cases r <;> rfl

/-- What follows the packet sub-step: a yield, or an advancing tick. -/
theorem afterPacket_cases (s : State) (st : Status) :
    (s.gateOpen = false ∧ s.afterPacket st = s.respond .yield (yieldData st) []) ∨
    (s.gateOpen = true ∧ s.afterPacket st = s.tickState.emitFrame st) := by
  unfold State.afterPacket
  cases s.gateOpen
  · exact .inl ⟨rfl, rfl⟩
  · exact .inr ⟨rfl, rfl⟩

theorem linkLoss_cases (s : State) :
    (s.alive s.now = true ∧ s.linkLoss = s) ∨ (s.alive s.now = false ∧ s.linkLoss = { s with vs := .zero }) := by
  unfold State.linkLoss
  cases s.alive s.now
  · exact .inr ⟨rfl, rfl⟩
  · exact .inl ⟨rfl, rfl⟩

theorem debounceStep_true (hold : BitVec 32) (d : DebounceRec) (t : Time) :
    debounceStep hold d true t = { active := true, lastTrue := t } := rfl

theorem debounceStep_false_cases (hold : BitVec 32) (d : DebounceRec) (t : Time) :
    (d.active = true ∧ hold.toNat < (t - d.lastTrue).toNat ∧
      debounceStep hold d false t = { active := false, lastTrue := d.lastTrue }) ∨
    ((d.active = false ∨ (t - d.lastTrue).toNat ≤ hold.toNat) ∧ debounceStep hold d false t = d) := by
  unfold debounceStep
  by_cases h : d.active = true ∧ hold < elapsed t d.lastTrue
  · exact .inl ⟨h.1, by simpa [elapsed, BitVec.lt_def] using h.2, by simp [h]⟩
  · refine .inr ⟨?_, by simp [h]⟩
    cases ha : d.active
    · exact .inl rfl
    · simp [ha, elapsed, BitVec.lt_def] at h
      exact .inr h

theorem exec_poll (s : State) :
    exec .poll s = .next (s.packetStep.post.respond s.packetStep.status s.packetStep.data []) := rfl

theorem exec_tick (s : State) : exec .tick s = .next (s.packetStep.post.afterPacket s.packetStep.status) := rfl

theorem extractOk_iff (start width : Nat) :
    extractOk start width = true ↔ 1 ≤ width ∧ width ≤ 64 ∧ start + width ≤ 64 := by
  simp [extractOk, and_assoc]

/-- The two refusals of exec, and nothing else it refuses. -/
theorem exec_refused_iff (i : Instr) (s : State) (r : Refusal) :
    exec i s = .refused r ↔
      (r = .extractPrecondition ∧ ∃ o, i = .bfx o ∧ extractOk o.start.toNat o.width.toNat = false) ∨
      (r = .illegalConfig ∧ s.pins.cfgPort.legal s.params.maxLen = false ∧ i = .reconf) := by
  cases i with
  | bfx o =>
    cases h : extractOk o.start.toNat o.width.toNat <;> simp [exec, execBfx, h]
    exact eq_comm
  | reconf =>
    by_cases h : s.pins.cfgPort.legal s.params.maxLen = true <;> simp [exec, execReconf, State.cfgRead, h]
    exact eq_comm
  | sdec o => simp only [exec, execSdec]; split <;> simp
  | csum o => simp only [exec, execCsum]; split <;> simp
  | pkdec o => simp only [exec, execPkdec]; split <;> simp
  | pkenc o => simp [exec, execPkenc]
  | rx o => simp [exec, execRx]
  | poll => simp [exec, execPoll]
  | tick => simp [exec, execTick]
  | ovrd o => simp [exec, execOvrd]
  | stat => simp [exec, execStat]
  | tinit o => simp [exec, execTinit]
  | arb o => simp [exec, execArb]

/-- A command that is not refused completes. -/
theorem exec_next_of_not_refused (i : Instr) (s : State) (h : ∀ r, exec i s ≠ .refused r) : ∃ t, exec i s = .next t := by
  cases he : exec i s with
  | next t => exact ⟨t, rfl⟩
  | fault f => cases f
  | refused r => exact absurd he (h r)

/-- A step that takes a command. -/
theorem step_of_command (s : State) (h1 : s.pins.rst = false) (h2 : s.rstHeld = false) (h3 : s.pins.cmdValid = true) :
    step s = match runCommand s with
      | .next t => .next t.advancePins
      | .fault f => .fault f
      | .refused r => .refused r := by
  cases hr : runCommand s <;> simp [step, h1, h2, h3, hr]

/-- A step that answers a next state: held in reset, released, a command, or nothing presented. -/
theorem step_next_cases {s t : State} (h : step s = .next t) :
    (s.pins.rst = true ∧ t = s.holdInReset) ∨
    (s.pins.rst = false ∧ s.rstHeld = true ∧ s.cfgRead.legal s.params.maxLen = true ∧ t = s.releaseReset) ∨
    (s.pins.rst = false ∧ s.rstHeld = false ∧ s.pins.cmdValid = true ∧
      ((∃ r, decode s.pins.cmd = .error r ∧ t = s.answerBadOp.advancePins) ∨
       (∃ i u, decode s.pins.cmd = .ok i ∧ exec i s = .next u ∧ t = u.advancePins))) ∨
    (s.pins.rst = false ∧ s.rstHeld = false ∧ s.pins.cmdValid = false ∧ t = s.idle) := by
  unfold step at h
  cases h1 : s.pins.rst <;> simp only [h1] at h
  · cases h2 : s.rstHeld <;> simp only [h2] at h
    · cases h3 : s.pins.cmdValid <;> simp only [h3] at h
      · exact .inr (.inr (.inr ⟨rfl, rfl, rfl, by simpa using h.symm⟩))
      · refine .inr (.inr (.inl ⟨rfl, rfl, rfl, ?_⟩))
        unfold runCommand at h
        cases hd : decode s.pins.cmd with
        | error r => exact .inl ⟨r, rfl, by simpa [hd] using h.symm⟩
        | ok i =>
          cases he : exec i s with
          | next u => exact .inr ⟨i, u, rfl, he, by simpa [hd, he] using h.symm⟩
          | fault f => cases f
          | refused r => simp [hd, he] at h
    · cases h4 : s.cfgRead.legal s.params.maxLen
      · simp [h4] at h
      · exact .inr (.inl ⟨rfl, rfl, rfl, by simpa [h4] using h.symm⟩)
  · exact .inl ⟨rfl, by simpa using h.symm⟩

end Sys2Proof.Machine
end

