-- ==== Sys2Proof/Laws/PerInstr.lean ====
section
/-! SUPPORT. The family EncodeOpcode: the top four bits of an encoded operation are its opcode (R61, R67). -/

namespace Sys2Proof.Laws.EncodeOpcode

/-- The opcode field of the command word is the operation's opcode. -/
def Statement (i : Instr) : Prop := opOf (encode i) = i.opcode

/-- The opcode is read back from above the operand field. -/
theorem opOf_layout (op : BitVec 4) (o : BitVec 124) : opOf (place 128 124 op ||| place 128 0 o) = op := by
  rw [opOf, extract_or, extract_place_same _ _ _ (by decide), extract_place_disjoint _ _ _ _ _ (by decide)]
  simp

theorem bfx (o : FormatX) : Statement (.bfx o) := opOf_layout _ _
theorem sdec (o : FormatF) : Statement (.sdec o) := opOf_layout _ _
theorem csum (o : FormatP) : Statement (.csum o) := opOf_layout _ _
theorem pkenc (o : FormatE) : Statement (.pkenc o) := opOf_layout _ _
theorem pkdec (o : FormatP) : Statement (.pkdec o) := opOf_layout _ _
theorem rx (o : FormatP) : Statement (.rx o) := opOf_layout _ _
theorem poll : Statement .poll := opOf_layout _ _
theorem tick : Statement .tick := opOf_layout _ _
theorem reconf : Statement .reconf := opOf_layout _ _
theorem ovrd (o : FormatV) : Statement (.ovrd o) := opOf_layout _ _
theorem stat : Statement .stat := opOf_layout _ _
theorem tinit (o : FormatI) : Statement (.tinit o) := opOf_layout _ _
theorem arb (o : FormatQ) : Statement (.arb o) := opOf_layout _ _

end Sys2Proof.Laws.EncodeOpcode
end

