-- ==== Sys2Proof/Laws/Relay.lean ====
section
/-! SUPPORT. What the sub-steps of POLL and TICK leave, register by register: the packet sub-step, the mode registers, and
sub-steps 2 to 6 of an advancing tick. -/

namespace Sys2Proof.Machine

theorem ModeRegs.onPacket_mode (m : Bool) (rx : Time) (r : ModeRegs) :
    (r.onPacket m rx).mode =
      if r.mode = .waitLink ∨ r.mode = .waitData then (if m then .running else .waitData) else r.mode := by
  rcases r with ⟨md, a, b, c⟩
  cases m <;> cases md <;> rfl

theorem ModeRegs.onPacket_modeT (m : Bool) (rx : Time) (r : ModeRegs) : (r.onPacket m rx).modeT = r.modeT := by
  rcases r with ⟨md, a, b, c⟩
  cases m <;> cases md <;> rfl

theorem ModeRegs.onPacket_dataV (m : Bool) (rx : Time) (r : ModeRegs) : (r.onPacket m rx).dataV = (m || r.dataV) := by
  rcases r with ⟨md, a, b, c⟩
  cases m <;> cases md <;> rfl

theorem ModeRegs.onPacket_dataT (m : Bool) (rx : Time) (r : ModeRegs) :
    (r.onPacket m rx).dataT = if m then rx else r.dataT := by
  rcases r with ⟨md, a, b, c⟩
  cases m <;> cases md <;> rfl

/-- What the mode timers can do to the mode: nothing, or one of the four transitions a TICK has. -/
theorem ModeRegs.tickMode_cases (now : Time) (lv : LivenessRecord) (cfg : CfgRec) (r : ModeRegs) :
    r.tickMode now lv cfg = r.mode ∨
    (r.mode = .booting ∧ r.tickMode now lv cfg = .initTransport) ∨
    (r.mode = .waitData ∧ r.tickMode now lv cfg = .waitLink) ∨
    (r.mode = .running ∧ (r.tickMode now lv cfg = .waitLink ∨ r.tickMode now lv cfg = .waitData)) := by
  rcases r with ⟨md, a, b, c⟩
  cases md <;> simp only [ModeRegs.tickMode] <;> (try split) <;> (try split) <;> simp

theorem State.applyPacket_eq (s : State) (f : PktFields) (snap : Mailbox) : s.applyPacket f snap = { s with
    vs := { bits6 := f.bits6, ls := f.left, rs := f.right, flags := f.flags }
    lv := { valid := true, lastRx := snap.rxTime, lastSeq := f.seq, qValid := snap.qValid, q := snap.q,
            senderClock := f.clock } } := rfl

/-- The state an accepted packet leaves, register by register. -/
theorem packetStep_accepted (s : State) (f : PktFields) (hf : s.mb.fresh = true)
    (hd : pktDecode s.params s.mb.data s.mb.len = .ok f) :
    s.packetStep =
      { status := .ok
        data := pollData s.params f s.lv
        post :=
          { s with
            vs := { bits6 := f.bits6, ls := f.left, rs := f.right, flags := f.flags }
            lv := { valid := true, lastRx := s.mb.rxTime, lastSeq := f.seq, qValid := s.mb.qValid, q := s.mb.q,
                    senderClock := f.clock }
            mb := { s.mb with fresh := false }
            rxstat := .ok
            mls := if s.params.hasModeFsm then s.mls.onPacket (meaningful s.params f) s.mb.rxTime else s.mls } } := by
  simp only [State.packetStep, hf, hd, State.modeOnPacket, if_true]
  cases h : s.params.hasModeFsm <;> simp [State.applyPacket, State.mbTake, h]

/-- The state a rejected packet leaves. -/
theorem packetStep_rejected (s : State) (r : PktReject) (hf : s.mb.fresh = true)
    (hd : pktDecode s.params s.mb.data s.mb.len = .error r) :
    s.packetStep =
      { status := r.status, data := 0, post := { s with mb := { s.mb with fresh := false }, rxstat := r.status } } := by
  simp only [State.packetStep, hf, hd, if_true]
  rfl

/-- The state sub-steps 2 to 6 of an advancing tick leave, register by register. -/
theorem tickState_eq (s : State) :
    s.tickState =
      { s with
        tf := s.now
        mls := if s.params.hasModeFsm then { s.mls with mode := s.mls.tickMode s.now s.lv s.cfg } else s.mls
        vs := if s.alive s.now then s.vs else .zero
        db :=
          { left := debounceStep s.cfg.hold s.db.left
              (if s.ovr.en then s.ovr.bits6 else (if s.alive s.now then s.vs else .zero).bits6).lt s.now
            right := debounceStep s.cfg.hold s.db.right
              (if s.ovr.en then s.ovr.bits6 else (if s.alive s.now then s.vs else .zero).bits6).rt s.now } } := by
  have hal : ∀ m : ModeRegs, ({ s with tf := s.now, mls := m } : State).alive s.now = s.alive s.now := fun _ => rfl
  have hal' : ({ s with tf := s.now } : State).alive s.now = s.alive s.now := rfl
  simp only [State.tickState, State.modeOnTick]
  cases h : s.params.hasModeFsm <;> cases ha : s.alive s.now <;>
    simp only [State.linkLoss, State.now, if_true, if_false, Bool.false_eq_true] at * <;>
    simp [hal, ha, State.debounceBoth, State.sample, State.eff6, State.now]

/-- An advancing tick, from one frame period after the last one on. -/
theorem exec_tick_of_gate (s : State) (h : s.cfg.framePeriod.toNat ≤ (s.pins.now - s.tf).toNat) :
    exec .tick s = .next (s.packetStep.post.tickState.emitFrame s.packetStep.status) := by
  have hg : s.packetStep.post.gateOpen = true := by
    rw [gateOpen_iff]; simpa using h
  rw [exec_tick]; unfold State.afterPacket; rw [hg]; rfl

/-- The arbiter picks the eligible category of smallest code, or NONE when no category is eligible. -/
theorem arbitrate_spec (al : Bool) (en cond : PerCategory Bool) :
    (∀ c, arbitrate al en cond = some c →
      al = true ∧ en.get c = true ∧ cond.get c = true ∧ ∀ c' : Category, c'.code < c.code → (en.get c' && cond.get c') = false) ∧
    (arbitrate al en cond = none → al = false ∨ ∀ c, (en.get c && cond.get c) = false) := by
  have h1 := fun c => Bool.and_comm (cond.get c) (en.get c)
  unfold arbitrate
  have ht := h1 .turn; have hc := h1 .charging; have ha := h1 .autopilot; have hr := h1 .track; have hp := h1 .plugged
  simp only [PerCategory.get] at ht hc ha hr hp
  rw [ht, hc, ha, hr, hp]
  cases al
  · simp
  cases e1 : en.turn && cond.turn
  · cases e2 : en.charging && cond.charging
    · cases e3 : en.autopilot && cond.autopilot
      · cases e4 : en.track && cond.track
        · cases e5 : en.plugged && cond.plugged
          · refine ⟨by simp, fun _ => .inr fun c => ?_⟩
            cases c <;> assumption
          · refine ⟨?_, by simp⟩
            rintro c hc
            simp at hc; subst hc
            simp at e5
            refine ⟨rfl, e5.1, e5.2, ?_⟩
            intro c'; cases c' <;> simp [Category.code] <;> simp_all [PerCategory.get]
        · refine ⟨?_, by simp⟩
          rintro c hc
          simp at hc; subst hc
          simp at e4
          refine ⟨rfl, e4.1, e4.2, ?_⟩
          intro c'; cases c' <;> simp [Category.code] <;> simp_all [PerCategory.get]
      · refine ⟨?_, by simp⟩
        rintro c hc
        simp at hc; subst hc
        simp at e3
        refine ⟨rfl, e3.1, e3.2, ?_⟩
        intro c'; cases c' <;> simp [Category.code] <;> simp_all [PerCategory.get]
    · refine ⟨?_, by simp⟩
      rintro c hc
      simp at hc; subst hc
      simp at e2
      refine ⟨rfl, e2.1, e2.2, ?_⟩
      intro c'; cases c' <;> simp [Category.code]
      simp_all [PerCategory.get]
  · refine ⟨?_, by simp⟩
    rintro c hc
    simp at hc; subst hc
    simp at e1
    refine ⟨rfl, e1.1, e1.2, ?_⟩
    intro c'; cases c' <;> simp [Category.code]

/-- The writes of a strip are one a position, in increasing order. -/
theorem stripWrites_range (side : Side) (f : Nat → Colour) (k n : Nat) :
    stripWrites side k ((List.range n).map fun i => f (k + i)) =
      (List.range n).map fun i => SurfEvent.surfWrite side (k + i) (f (k + i)) := by
  induction n generalizing k f with
  | zero => rfl
  | succ n ih =>
    rw [List.range_succ_eq_map]
    simp only [List.map_cons, List.map_map, stripWrites, Nat.add_zero]
    congr 1
    have h := ih f (k + 1)
    have e : (fun i => f (k + 1 + i)) = (fun i => f (k + i)) ∘ Nat.succ := by
      funext i
      simp only [Function.comp]
      congr 1
      omega
    rw [e] at h
    rw [h]
    congr 1
    funext i
    simp only [Function.comp]
    have h' : k + 1 + i = k + i.succ := by omega
    rw [h']

end Sys2Proof.Machine
end

