-- ==== Sys2Proof/Tests/Slice0.lean ====
section
/-! SUPPORT. The model's own tests. Expected values come from the spec: the examples of its rules and the vectors of
95_test_vectors.md, named in each comment. The witnesses at the end show, for every statement that has hypotheses, a
concrete state and operands that meet them. -/

namespace Sys2Proof.Tests

open Sys2Proof Sys2Proof.Machine

/-! ### Helpers -/

/-- The state an operation leaves (the state itself where it is refused). -/
def after (i : Instr) (s : State) : State :=
  match exec i s with
  | .next t => t
  | .fault _ => s
  | .refused _ => s

/-- The result of an operation on the two result ports. -/
def reply (i : Instr) (s : State) : Option (Status × ResData) :=
  match exec i s with
  | .next t => t.answer.map fun a => (a.status, a.data)
  | .fault _ => none
  | .refused _ => none

/-- The refusal of an operation. -/
def refusal (i : Instr) (s : State) : Option Refusal :=
  match exec i s with
  | .next _ => none
  | .fault _ => none
  | .refused r => some r

/-- A state at a time. -/
def at' (s : State) (t : Time) : State := { s with pins := { s.pins with now := t } }

/-- The state after reset with another wire format. -/
def resetB : State := { State.reset with params := { Config.params0 with fmt := .b } }

/-- The state after reset with the mode state machine, in a given mode. -/
def resetFsm (m : Mode) : State :=
  { State.reset with params := { Config.params0 with hasModeFsm := true }, mls := { State.reset.mls with mode := m } }

/-- The packet K1 of 95_test_vectors.md in lanes. -/
def k1 : BitVec 96 := 0xE311223344010201000101A5

/-- A state whose mailbox holds a fresh packet received at 1000, at time 1004. -/
def withPacket (s : State) (bytes : BitVec 96) (len : BitVec 4) : State :=
  { at' s 1004 with mb := { fresh := true, len := len, data := bytes, rxTime := 1000, qValid := true, q := 0xC4 } }

/-- A state with a command on the port. -/
def presented (s : State) (w : CmdWord) : State :=
  { s with pins := { s.pins with rst := false, cmdValid := true, cmd := w }, rstHeld := false }

/-- A state whose link was last heard at 1000, alive for 700 more. -/
def linked (t : Time) : State :=
  { at' State.reset t with
    vs := { bits6 := ⟨true, false, false, false, false, false⟩, ls := .on, rs := .off, flags := 1 }
    lv := { valid := true, lastRx := 1000, lastSeq := 0x0102, qValid := true, q := 0xC4, senderClock := 0 }
    db := ⟨{ active := true, lastTrue := 1000 }, .zero⟩ }

/-! ### Decoding: words written out in the spec, one or more a family -/

theorem test_decode_bfx : decode 0x10000000000000B40000000000001000 = .ok (.bfx ⟨0x1000, 52, 2⟩) := by decide  -- E1
theorem test_decode_sdec : decode 0x2000000000003BF50000000000001000 = .ok (.sdec ⟨0x1000, 0x3F5, 7⟩) := by decide  -- S10
theorem test_decode_csum : decode 0x3000000B0011223344010201000101A5 =
    .ok (.csum ⟨0x0011223344010201000101A5, 11, false, 0⟩) := by decide  -- CS5
theorem test_decode_pkenc : decode 0x400000000000A0000000001020304000 =
    .ok (.pkenc ⟨0, 0, 0, 0x01020304, 0, 0b001010⟩) := by decide  -- KB1
theorem test_decode_pkdec : decode 0x5000000CE311223344010201000101A5 =
    .ok (.pkdec ⟨0xE311223344010201000101A5, 12, false, 0⟩) := by decide  -- K6
theorem test_decode_rx : decode 0x6000189CE311223344010201000101A5 =
    .ok (.rx ⟨0xE311223344010201000101A5, 12, true, 0xC4⟩) := by decide  -- L2
theorem test_decode_no_operand :
    decode 0x70000000000000000000000000000000 = .ok .poll ∧ decode 0x80000000000000000000000000000000 = .ok .tick ∧
    decode 0x90000000000000000000000000000000 = .ok .reconf ∧
    decode 0xB0000000000000000000000000000000 = .ok .stat := by decide  -- section 4
theorem test_decode_ovrd : decode 0xA0000000000000000000000000000059 = .ok (.ovrd ⟨0b011001, true⟩) := by decide  -- P4
theorem test_decode_tinit : decode 0xC0000000000000000000000000000001 = .ok (.tinit ⟨true⟩) := by decide  -- P5
theorem test_decode_arb : decode 0xD000000000000000000000000000077C =
    .ok (.arb ⟨0b11100, 0b11011, true⟩) := by decide  -- A9
theorem test_decode_reserved : decode 0xE0000000000000000000000000000000 = .error (.reservedOpcode 0xE) ∧
    decode 0x00000000000000000000000000000000 = .error (.reservedOpcode 0) := by decide  -- R67
theorem test_encode_pkenc : encode (.pkenc ⟨1, 0, 0x01, 7, 90, 0⟩) = 0x40000000000000000005A00000007011 := by decide  -- P1
theorem test_decodeTableWord : decodeTableWord 128 (0xA * 2 ^ 124 + 0x58) = some (.ovrd ⟨0b011000, true⟩) := by
  decide  -- P4

/-! ### Well-formedness: each check refuses an ill-formed operation (R68, R69) -/

theorem test_wf_bfx_width_zero : (Instr.bfx ⟨0, 0, 0⟩).wellFormed = false := by decide
theorem test_wf_bfx_width_65 : (Instr.bfx ⟨0, 0, 65⟩).wellFormed = false := by decide
theorem test_wf_bfx_past_the_end : (Instr.bfx ⟨0, 60, 5⟩).wellFormed = false := by decide
theorem test_wf_csum_13 : (Instr.csum ⟨0, 13, false, 0⟩).wellFormed = false := by decide
theorem test_wf_boundary : (Instr.bfx ⟨0, 63, 1⟩).wellFormed = true ∧ (Instr.bfx ⟨0, 0, 64⟩).wellFormed = true ∧
    (Instr.csum ⟨0, 12, false, 0⟩).wellFormed = true := by decide

/-! ### One or two results an operation -/

theorem test_bfx_crosses_bytes : reply (.bfx ⟨0x0123456789ABCDEF, 28, 8⟩) State.reset = some (.ok, 0x78) := by
  decide  -- X8
theorem test_bfx_precondition : refusal (.bfx ⟨0, 60, 5⟩) State.reset = some .extractPrecondition := by decide  -- U1
theorem test_sdec_hit : reply (.sdec ⟨0x2C00, 0x3F5, 8⟩) State.reset = some (.ok, 0x1D) := by decide  -- S4
theorem test_sdec_filtered : reply (.sdec ⟨0x1000, 0x7F5, 8⟩) State.reset = some (.filtered, 0) := by decide  -- S13
theorem test_csum_two_of_twelve : reply (.csum ⟨k1, 2, false, 0⟩) State.reset = some (.ok, 0xA4) := by decide  -- CS7
theorem test_csum_13 : reply (.csum ⟨k1, 13, false, 0⟩) State.reset = some (.badOp, 0) := by decide  -- CS8
theorem test_pkenc_a : reply (.pkenc ⟨1, 0, 0x01, 0x00050102, 0x11223344, 0⟩) State.reset =
    some (.ok, 0xCE311223344010201000101A5) := by decide  -- K5
theorem test_pkenc_b : reply (.pkenc ⟨0, 0, 0, 0x01020304, 0, 0b001010⟩) resetB =
    some (.ok, 0x5000000000000000A01020304) := by decide  -- KB1
theorem test_pkdec_ok : reply (.pkdec ⟨k1, 12, false, 0⟩) State.reset = some (.ok, 0x11122334400000102011) := by
  decide  -- K6
theorem test_pkdec_order : reply (.pkdec ⟨0xE311223344010201000401A5, 12, false, 0⟩) State.reset =
    some (.badChecksum, 0) := by decide  -- K19
theorem test_rx_publishes : (after (.rx ⟨k1, 12, true, 0xC4⟩) (at' State.reset 1000)).mb =
    { fresh := true, len := 12, data := k1, rxTime := 1000, qValid := true, q := 0xC4 } := by decide  -- L2
theorem test_poll_applies : (after .poll (withPacket State.reset k1 12)).lv =
    { valid := true, lastRx := 1000, lastSeq := 0x0102, qValid := true, q := 0xC4, senderClock := 0x11223344 } := by
  decide  -- L3
theorem test_poll_result : reply .poll (withPacket State.reset k1 12) = some (.ok, 0x408) := by decide  -- L3
theorem test_tick_yield : reply .tick (at' State.reset 19) = some (.yield, 0x400) := by decide  -- Y2
theorem test_tick_advance : reply .tick (at' State.reset 20) = some (.ok, 0x600) := by decide  -- Y3
theorem test_reconf_emits : (after .reconf State.reset).surf = [.surfConfig 8 8 255] := by decide  -- P4 line 3
theorem test_ovrd_writes : (after (.ovrd ⟨0b011000, true⟩) State.reset).ovr =
    { en := true, bits6 := ⟨false, false, false, true, true, false⟩ } := by decide  -- P4 line 1
theorem test_ovrd_shows : reply .tick (at' (after (.ovrd ⟨0b011000, true⟩) State.reset) 500) = some (.ok, 0x612) := by
  decide  -- P4 line 2
theorem test_stat_after_reset : reply .stat (at' State.reset 5) = some (.ok, 0x8200000000000000000280000) := by
  decide  -- T1
theorem test_tinit_error : (after (.tinit ⟨false⟩) (resetFsm .initTransport)).mls.mode = .error := by decide  -- R192
theorem test_tinit_ignored : (after (.tinit ⟨true⟩) (resetFsm .booting)).mls.mode = .booting := by decide  -- R192
theorem test_arb_skips_disabled : reply (.arb ⟨0b00011, 0b11110, true⟩) State.reset = some (.ok, 2) := by decide  -- A2
theorem test_scale : scale ⟨0x01, 0x02, 0x03⟩ 153 = ⟨0x00, 0x01, 0x01⟩ := by decide  -- G5
theorem test_debounce_boundary : debounceStep 180 { active := true, lastTrue := 100 } false 280 =
      { active := true, lastTrue := 100 } ∧
    debounceStep 180 { active := true, lastTrue := 100 } false 281 = { active := false, lastTrue := 100 } := by
  decide  -- B4, B5
theorem test_elapsed_wraps : elapsed 0x00000005 0xFFFFFFFB = 10 := by decide  -- section 3.1
theorem test_frame_turn : renderStrip Config.cfg0 .left (some .turn) 1500 =
    List.replicate 5 ⟨0x10, 0x10, 0x10⟩ ++ List.replicate 3 ⟨0x33, 0x19, 0x00⟩ := by rfl  -- G9

/-! ### Witnesses: for each statement with hypotheses a concrete state and operands that meet them, at the boundaries -/

/-- A packet waits and format A accepts it, K1 of 95_test_vectors.md. -/
theorem k1_accepted : pktDecode Config.params0 k1 12 = .ok (fieldsA k1) := by decide

theorem witness_ReservedBitsAreIgnored :
    decode 0xA0000000000000000000000000000058 = .ok (.ovrd ⟨0b011000, true⟩) ∧
    (0xA0000000000000000000000000000058 : CmdWord) ≠ 0xAFFFFFFFFFFFFFFFFFFFFFFFFFFFFFD8 ∧
    (0xAFFFFFFFFFFFFFFFFFFFFFFFFFFFFFD8 : CmdWord) &&& (Instr.ovrd ⟨0b011000, true⟩).assignedBits =
      0xA0000000000000000000000000000058 &&& (Instr.ovrd ⟨0b011000, true⟩).assignedBits := by decide

theorem witness_IllegalEncodingsAnswerBadOp :
    (presented State.reset 0xE0000000000000000000000000000000).pins.rst = false ∧
    (presented State.reset 0xE0000000000000000000000000000000).rstHeld = false ∧
    (presented State.reset 0xE0000000000000000000000000000000).pins.cmdValid = true ∧
    decode (presented State.reset 0xE0000000000000000000000000000000).pins.cmd = .error (.reservedOpcode 0xE) ∧
    decode 0x0F000000000000000000000000000000 = .error (.reservedOpcode 0x0) ∧
    decode 0xF0000000000000000000000000000000 = .error (.reservedOpcode 0xF) ∧
    decode (presented State.reset 0x3000000D000000000000000000000000).pins.cmd = .ok (.csum ⟨0, 13, false, 0⟩) ∧
    decode (presented State.reset 0x3000000F000000000000000000000000).pins.cmd = .ok (.csum ⟨0, 15, false, 0⟩) :=
  ⟨rfl, rfl, rfl, rfl, rfl, rfl, rfl, rfl⟩

theorem witness_StepRunsTheDecodedOperation :
    (presented State.reset 0x80000000000000000000000000000000).pins.rst = false ∧
    (presented State.reset 0x80000000000000000000000000000000).rstHeld = false ∧
    (presented State.reset 0x80000000000000000000000000000000).pins.cmdValid = true ∧
    decode (presented State.reset 0x80000000000000000000000000000000).pins.cmd = .ok .tick ∧
    exec .tick (presented State.reset 0x80000000000000000000000000000000) =
      .next (after .tick (presented State.reset 0x80000000000000000000000000000000)) ∧
    exec (.bfx ⟨0, 0, 0⟩) State.reset = .refused .extractPrecondition ∧
    ({ State.reset with script := [State.reset.pins] } : State).script = State.reset.pins :: [] ∧
    State.reset.script = [] := ⟨rfl, rfl, rfl, rfl, rfl, rfl, rfl, rfl⟩

theorem witness_NoCommandChangesNothing :
    State.reset.pins.rst = false ∧ State.reset.rstHeld = false ∧ State.reset.pins.cmdValid = false := by decide

theorem witness_OnlyUndefinedCasesStop :
    step (presented State.reset 0x10000000000000000000000000000000) = .refused .extractPrecondition ∧
    step { presented State.reset 0x90000000000000000000000000000000 with
      pins := { (presented State.reset 0x90000000000000000000000000000000).pins with
        cfgPort := { Config.cfg0 with baseline := 0 } } } = .refused .illegalConfig ∧
    step { State.reset with
      rstHeld := true, pins := { State.reset.pins with cfgPort := { Config.cfg0 with baseline := 0 } } } =
        .refused .illegalConfig := ⟨rfl, rfl, rfl⟩

theorem witness_HeldInResetAcceptsNoCommand :
    ({ State.reset with pins := { State.reset.pins with rst := true, cmdValid := true } } : State).pins.rst = true := rfl

theorem witness_ReleaseOfResetSetsEveryRegister :
    ({ State.reset with rstHeld := true } : State).pins.rst = false ∧
    ({ State.reset with rstHeld := true } : State).rstHeld = true ∧
    ({ State.reset with rstHeld := true } : State).pins.cfgPort.legal Config.params0.maxLen = true := by decide

/-- A record at every bound of R21: the longest strips, the smallest periods and floor, the sum 255. -/
def cfgAtBounds : CfgRec :=
  { Config.cfg0 with
    len := ⟨65535, 65535⟩, period := ⟨1, 1, 1, 1, 1⟩, baseline := 1, range := 254 }

theorem witness_ResetStateMeetsTheInvariant :
    cfgAtBounds.legal Config.params0.maxLen = true ∧ Config.cfg0.legal Config.params0.maxLen = true := by decide

theorem witness_EveryStepKeepsTheInvariant :
    MachineInv (linked 1004) ∧ step (presented (linked 1004) 0x80000000000000000000000000000000) =
      .next (after .tick (presented (linked 1004) 0x80000000000000000000000000000000)).advancePins ∧
    MachineInv (presented (linked 1004) 0x80000000000000000000000000000000) := by
  refine ⟨⟨by decide, by decide, ?_, ?_, by decide, by decide, by decide, by decide⟩, rfl,
    ⟨by decide, by decide, ?_, ?_, by decide, by decide, by decide, by decide⟩⟩
  all_goals first
    | exact (by decide : (Bits6.mk true false false false false false) = bits6OfCodes .on .off)
    | exact (by decide : (0x0102#32).toNat < 2 ^ 16)

theorem witness_ParametersAreFixedForARun :
    Host.Core.run Sys2Proof.core 1 State.reset = .next State.reset.idle := rfl

theorem witness_RegistersAreWrittenByTheirOwners :
    exec .poll (withPacket State.reset k1 12) = .next (after .poll (withPacket State.reset k1 12)) ∧
    (after .poll (withPacket State.reset k1 12)).vs ≠ (withPacket State.reset k1 12).vs := ⟨rfl, by decide⟩

theorem witness_BfxReturnsTheBitField :
    ∀ o ∈ [FormatX.mk 0x1000 50 2, ⟨0x0123456789ABCDEF, 0, 64⟩, ⟨0x0123456789ABCDEF, 63, 1⟩],
      1 ≤ o.width.toNat ∧ o.width.toNat ≤ 64 ∧ o.start.toNat + o.width.toNat ≤ 64 := by decide

theorem witness_BfxOutsideThePreconditionIsRefused :
    (FormatX.mk 0 0 0).width.toNat = 0 ∧ 64 < (FormatX.mk 0 0 65).width.toNat ∧
    64 < (FormatX.mk 0 60 5).start.toNat + (FormatX.mk 0 60 5).width.toNat ∧
    64 < (FormatX.mk 0 63 2).start.toNat + (FormatX.mk 0 63 2).width.toNat := by decide

theorem witness_PayloadReassemblyIsBigEndian : 0 < 64 ∧ 63 < 64 ∧ 0 < 8 ∧ 7 < 8 := by decide

theorem witness_SdecDecodesOrFilters :
    (FormatF.mk 0x1000 0x3F4 8).id ≠ State.reset.params.frameId ∧ (FormatF.mk 0x1000 0x3F5 7).dlc ≠ 8 ∧
    (FormatF.mk 0x1000 0x3F5 9).dlc ≠ 8 ∧ (FormatF.mk 0x1000 0x3F5 8).id = State.reset.params.frameId ∧
    (FormatF.mk 0x1000 0x3F5 8).dlc = 8 := by decide

theorem witness_CsumFoldsTheFirstLanes :
    (FormatP.mk k1 12 false 0).len.toNat ≤ 12 ∧ (FormatP.mk k1 0 false 0).len.toNat ≤ 12 ∧
    12 < (FormatP.mk k1 13 false 0).len.toNat := by decide

theorem witness_XorsumIsABitwiseParity :
    [(0xA5 : Byte), 0x01].Perm [0x01, 0xA5] ∧ 1 < [(0xA5 : Byte), 0x01].length ∧ 7 < 8 := by decide

theorem witness_PkencLaysOutFormatA : State.reset.params.fmt = .a := rfl

theorem witness_PkencLaysOutFormatB :
    resetB.params.fmt = .b ∧ resetB.params.legal = true ∧ resetB.params.bSeqLe = true ∧
    ({ resetB with params := { resetB.params with bSeqLe := false } } : State).params.legal = true ∧
    ({ resetB with params := { resetB.params with bSeqLe := false } } : State).params.bSeqLe = false ∧
    (6 : Fin 8) ∉ resetB.params.bBit.toList ∧ (7 : Fin 8) ∉ resetB.params.bBit.toList := by decide

theorem witness_PacketCodecRoundTrips :
    Config.params0.fmt = .a ∧ (PktFields.mk .sna .fault 0xFF 0xFFFF 0xFFFFFFFF .zero).seq.toNat < 2 ^ 16 ∧
    resetB.params.fmt = .b ∧ resetB.params.legal = true := by decide

theorem witness_SingleBitErrorsAreDetected :
    Config.params0.fmt = .a ∧ pktDecode Config.params0 k1 12 = .ok (fieldsA k1) ∧ resetB.params.fmt = .b := by decide

theorem witness_PkdecReportsTheFirstFailure :
    State.reset.params.fmt = .a ∧ (FormatP.mk k1 11 false 0).len.toNat ≠ 12 ∧ (FormatP.mk k1 13 false 0).len.toNat ≠ 12 ∧
    reply (.pkdec ⟨0xE211223344010201000101A4, 12, false, 0⟩) State.reset = some (.badMagic, 0) ∧
    reply (.pkdec ⟨0xE011223344010201000102A5, 12, false, 0⟩) State.reset = some (.badVersion, 0) ∧
    reply (.pkdec ⟨0xE211223344010201000101A5, 12, false, 0⟩) State.reset = some (.badChecksum, 0) ∧
    reply (.pkdec ⟨0xE611223344010201000401A5, 12, false, 0⟩) State.reset = some (.badField, 0) ∧
    reply (.pkdec ⟨0x1C11223344010201FF0101A5, 12, false, 0⟩) State.reset = some (.badField, 0) := by
  decide  -- K10, K11, K14, K15, K8, K17, K18

theorem witness_PkdecFormatBChecksTheLengthAlone :
    resetB.params.fmt = .b ∧ (FormatP.mk 0xCA01020304 12 false 0).len.toNat ≠ 5 ∧
    (FormatP.mk 0xCA01020304 5 false 0).len.toNat = 5 ∧ resetB.params.bSeqLe = true ∧
    ({ resetB with params := { resetB.params with bSeqLe := false } } : State).params.bSeqLe = false := by decide

theorem witness_EarlierPublishIsLostWithoutTrace :
    exec (.rx ⟨0, 12, false, 0⟩) (at' State.reset 1300) = .next (after (.rx ⟨0, 12, false, 0⟩) (at' State.reset 1300)) ∧
    exec (.rx ⟨k1, 12, false, 0⟩) { after (.rx ⟨0, 12, false, 0⟩) (at' State.reset 1300) with
        pins := { State.reset.pins with now := 1310 } } =
      exec (.rx ⟨k1, 12, false, 0⟩) (at' State.reset 1310) := ⟨rfl, rfl⟩

theorem witness_PollWithoutAFreshPacket :
    State.reset.mb.fresh = false ∧ exec .poll (withPacket State.reset k1 12) =
      .next (after .poll (withPacket State.reset k1 12)) := ⟨rfl, rfl⟩

theorem witness_RejectedPacketMutatesNothing :
    (withPacket State.reset k1 11).mb.fresh = true ∧
    pktDecode (withPacket State.reset k1 11).params (withPacket State.reset k1 11).mb.data
      (withPacket State.reset k1 11).mb.len = .error .badLen := by decide

theorem witness_AcceptedPacketOverwritesWholesale :
    (withPacket State.reset k1 12).mb.fresh = true ∧
    pktDecode (withPacket State.reset k1 12).params (withPacket State.reset k1 12).mb.data
      (withPacket State.reset k1 12).mb.len = .ok (fieldsA k1) ∧ State.reset.params.fmt = .a ∧
    State.reset.params.hasModeFsm = false := by decide

theorem witness_SequenceComparisonSurvivesTheWrap :
    (withPacket resetB 0x0A01020304 5).mb.fresh = true ∧ (withPacket resetB 0x0A01020304 5).params.fmt = .b ∧
    pktDecode (withPacket resetB 0x0A01020304 5).params (withPacket resetB 0x0A01020304 5).mb.data
      (withPacket resetB 0x0A01020304 5).mb.len = .ok (fieldsB resetB.params 0x0A01020304) ∧
    (withPacket (linked 1004) k1 12).mb.fresh = true ∧ (withPacket (linked 1004) k1 12).params.fmt = .a ∧
    reply .poll (withPacket (linked 1004) k1 12) = some (.ok, 1) := by decide  -- L6: a duplicate

theorem witness_AliveIsAnAgeWithinTheDeadWindow :
    (linked 1700).pins.now = BitVec.ofNat 32 1700 ∧ (linked 1701).pins.now = BitVec.ofNat 32 1701 ∧
    (linked 1700).lv.lastRx = BitVec.ofNat 32 1000 ∧ (linked 1700).lv.valid = true ∧
    1700 ≤ 1000 + (linked 1700).cfg.deadWindow.toNat ∧ ¬ 1701 ≤ 1000 + (linked 1701).cfg.deadWindow.toNat := by
  decide  -- E4

theorem witness_TickYieldsBeforeTheFramePeriod :
    exec .poll (at' State.reset 19) = .next (after .poll (at' State.reset 19)) ∧
    (after .poll (at' State.reset 19)).answer = some { status := .noPkt, data := 0, statCfg := none } ∧
    ((at' State.reset 19).pins.now - (at' State.reset 19).tf).toNat < (at' State.reset 19).cfg.framePeriod.toNat :=
  ⟨rfl, by decide, by decide⟩

theorem witness_TickAdvancesFromTheFramePeriodOn :
    exec .poll (at' State.reset 20) = .next (after .poll (at' State.reset 20)) ∧
    (after .poll (at' State.reset 20)).answer = some { status := .noPkt, data := 0, statCfg := none } ∧
    (at' State.reset 20).cfg.framePeriod.toNat ≤ ((at' State.reset 20).pins.now - (at' State.reset 20).tf).toNat ∧
    (linked 1700).lv.valid = true ∧
    ((linked 1700).pins.now - (linked 1700).lv.lastRx).toNat ≤ (linked 1700).cfg.deadWindow.toNat ∧
    ¬ ((linked 1701).pins.now - (linked 1701).lv.lastRx).toNat ≤ (linked 1701).cfg.deadWindow.toNat :=
  ⟨rfl, by decide, by decide, by decide, by decide, by decide⟩

theorem witness_TickDebouncesEachSide :
    exec .poll (linked 1701) = .next (after .poll (linked 1701)) ∧
    (linked 1701).cfg.framePeriod.toNat ≤ ((linked 1701).pins.now - (linked 1701).tf).toNat ∧
    (linked 1701).ovr.en = false ∧ (linked 1700).ovr.en = false ∧ (linked 1700).vs.bits6.lt = true ∧
    (linked 1180).db.left.active = true ∧
    ((linked 1180).pins.now - (linked 1180).db.left.lastTrue).toNat ≤ (linked 1180).cfg.hold.toNat ∧
    (linked 1181).cfg.hold.toNat < ((linked 1181).pins.now - (linked 1181).db.left.lastTrue).toNat ∧
    (linked 1181).db.right.active = false ∧
    (after (.ovrd ⟨0b000010, true⟩) (linked 1181)).ovr.en = true :=
  ⟨rfl, by decide, by decide, by decide, by decide, by decide, by decide, by decide, by decide, by decide⟩

theorem witness_DebounceMasksShortGapsAndReleases :
    (∀ t ∈ [(200 : Time), 280], (t - 100).toNat ≤ (180 : BitVec 32).toNat) ∧
    (180 : BitVec 32).toNat < ((281 : Time) - 100).toNat := by
  refine ⟨?_, by decide⟩  -- B3 to B5
  intro t ht
  simp only [List.mem_cons, List.not_mem_nil, or_false] at ht
  rcases ht with rfl | rfl <;> decide

theorem witness_DebounceSidesAreIndependent :
    exec .tick (linked 1700) = .next (after .tick (linked 1700)) ∧
    exec .tick { linked 1700 with db := { (linked 1700).db with right := { active := true, lastTrue := 1690 } } } =
      .next (after .tick
        { linked 1700 with db := { (linked 1700).db with right := { active := true, lastTrue := 1690 } } }) :=
  ⟨rfl, rfl⟩

theorem witness_TickArbitratesEachSide :
    (linked 1700).cfg.framePeriod.toNat ≤ ((linked 1700).pins.now - (linked 1700).tf).toNat ∧
    exec .tick (linked 1700) = .next (after .tick (linked 1700)) ∧
    (after .tick (linked 1700)).answer = some { status := .ok, data := 0x641, statCfg := none } :=
  ⟨by decide, rfl, by decide⟩  -- P3 line 4

theorem witness_RunningTickEmitsBodyAndTail :
    (linked 1700).cfg.framePeriod.toNat ≤ ((linked 1700).pins.now - (linked 1700).tf).toNat ∧
    exec .tick (linked 1700) = .next (after .tick (linked 1700)) ∧
    (after .tick (linked 1700)).answer = some { status := .ok, data := 0x641, statCfg := none } ∧
    (0x641 : ResData).extractLsb' 7 3 = 4 ∧ (0x641 : ResData).extractLsb' 0 3 = prCode (some .turn) ∧
    (0x641 : ResData).extractLsb' 3 3 = prCode none ∧
    (linked 1700).cfg.len.left.toNat - min (linked 1700).cfg.tail.left.toNat (linked 1700).cfg.len.left.toNat = 5 :=
  ⟨by decide, rfl, by decide, by decide, by decide, by decide, by decide⟩

/-- The colours that hypothesis of the same statement asks for exist. -/
theorem witness_RunningTickEmitsBodyAndTail_colour (s : State) : ∃ colour : Side → PriorityResult → Nat → Colour,
    (∀ side i, colour side none i = s.cfg.colAmbient) ∧
    (∀ side c i, i < (s.cfg.len.get side).toNat - min (s.cfg.tail.get side).toNat (s.cfg.len.get side).toNat →
      colour side (some c) i = s.cfg.colAmbient) ∧
    (∀ side c i, (s.cfg.len.get side).toNat - min (s.cfg.tail.get side).toNat (s.cfg.len.get side).toNat ≤ i →
      colour side (some c) i = scale (s.cfg.col.get c) (b8 s.cfg c s.pins.now)) := by
  refine ⟨fun side pr i => positionColour s.cfg side pr s.pins.now i, fun _ _ => rfl, ?_, ?_⟩
  · intro side c i h
    exact if_pos h
  · intro side c i h
    exact if_neg (Nat.not_lt.mpr h)

theorem witness_DiagnosticTickKeepsTheEventOrder :
    (at' (resetFsm .booting) 100).cfg.framePeriod.toNat ≤
      ((at' (resetFsm .booting) 100).pins.now - (at' (resetFsm .booting) 100).tf).toNat ∧
    exec .tick (at' (resetFsm .booting) 100) = .next (after .tick (at' (resetFsm .booting) 100)) ∧
    (after .tick (at' (resetFsm .booting) 100)).answer = some { status := .ok, data := 0x400, statCfg := none } ∧
    (0x400 : ResData).extractLsb' 7 3 ≠ 4 := ⟨by decide, rfl, by decide, by decide⟩  -- P5 line 1

theorem witness_BrightnessStaysWithinItsBounds :
    cfgAtBounds.legal 65535 = true ∧ Config.cfg0.legal 8 = true ∧ 1 ≤ 400 ∧ 4 ∣ 400 ∧ 2 ∣ 2 ∧ 1 ≤ 1 := by decide

theorem witness_NoPacketMeansAmbientOnly :
    State.reset.lv.valid = false ∧ State.reset.mb.fresh = false ∧ State.reset.ovr.en = false ∧
    State.reset.db.left.active = false ∧ State.reset.db.right.active = false ∧
    State.reset.params.hasModeFsm = false := by decide

theorem witness_ReconfLoadsTheWholeRecord :
    State.reset.pins.cfgPort.legal State.reset.params.maxLen = true ∧ cfgAtBounds.legal State.reset.params.maxLen = true ∧
    ({ cfgAtBounds with range := 255 } : CfgRec).legal State.reset.params.maxLen = false ∧
    ({ cfgAtBounds with baseline := 0 } : CfgRec).legal State.reset.params.maxLen = false ∧
    ({ cfgAtBounds with period := ⟨1, 1, 1, 1, 0⟩ } : CfgRec).legal State.reset.params.maxLen = false ∧
    cfgAtBounds.legal 65534 = false := by decide

theorem witness_OverrideNeverReachesTheVehicleState :
    exec .tick (linked 1700) = .next (after .tick (linked 1700)) ∧
    exec .tick { linked 1700 with ovr := { en := true, bits6 := .zero } } =
      .next (after .tick { linked 1700 with ovr := { en := true, bits6 := .zero } }) := ⟨rfl, rfl⟩

theorem witness_TinitReportsTheTransport :
    (resetFsm .initTransport).params.hasModeFsm = true ∧ (resetFsm .initTransport).mls.mode = .initTransport ∧
    State.reset.params.hasModeFsm = false ∧ (resetFsm .error).mls.mode ≠ .initTransport := by decide

theorem witness_ModeFollowsTheTransitionTable :
    exec .tick (at' (resetFsm .booting) 500) = .next (after .tick (at' (resetFsm .booting) 500)) ∧
    (after .tick (at' (resetFsm .booting) 500)).mls.mode = .initTransport ∧
    (after (.tinit ⟨true⟩) (resetFsm .initTransport)).mls.mode = .waitLink ∧
    (after .poll (withPacket (resetFsm .waitLink) k1 12)).mls.mode = .running ∧
    (after .tick (at' (resetFsm .running) 100)).mls.mode = .waitLink :=
  ⟨rfl, by decide, by decide, by decide, by decide⟩  -- P5

theorem witness_AcceptedPacketMovesTheMode :
    (withPacket (resetFsm .waitLink) k1 12).mb.fresh = true ∧
    pktDecode (withPacket (resetFsm .waitLink) k1 12).params (withPacket (resetFsm .waitLink) k1 12).mb.data
      (withPacket (resetFsm .waitLink) k1 12).mb.len = .ok (fieldsA k1) ∧
    (resetFsm .waitLink).params.hasModeFsm = true ∧ (resetFsm .waitLink).params.fmt = .a ∧
    (fieldsA k1).flags.getLsbD 0 = true ∧ (fieldsA 0xFF00000258000100000001A5).flags.getLsbD 0 = false ∧
    pktDecode (resetFsm .waitLink).params 0xFF00000258000100000001A5 12 =
      .ok (fieldsA 0xFF00000258000100000001A5) := by decide  -- P5 lines 4, 6

/-- In RUNNING, last packet and last data at 700 (P5 lines 8 to 11). -/
def running (t : Time) : State :=
  { at' (resetFsm .running) t with
    lv := { valid := true, lastRx := 700, lastSeq := 2, qValid := false, q := 0, senderClock := 700 }
    mls := { mode := .running, modeT := 0, dataT := 700, dataV := true } }

theorem witness_TickMovesTheModeByItsTimers :
    (running 1700).mb.fresh = false ∧ (running 1700).params.hasModeFsm = true ∧
    (running 1700).cfg.framePeriod.toNat ≤ ((running 1700).pins.now - (running 1700).tf).toNat ∧
    ¬ (running 1700).cfg.dataTimeout.toNat < ((running 1700).pins.now - (running 1700).mls.dataT).toNat ∧
    (running 1701).cfg.dataTimeout.toNat < ((running 1701).pins.now - (running 1701).mls.dataT).toNat ∧
    ¬ (running 2700).cfg.linkTimeout.toNat < ((running 2700).pins.now - (running 2700).lv.lastRx).toNat ∧
    (running 2701).cfg.linkTimeout.toNat < ((running 2701).pins.now - (running 2701).lv.lastRx).toNat ∧
    (resetFsm .booting).mls.mode = .booting ∧
    (at' (resetFsm .booting) 500).cfg.bootTime.toNat ≤
      ((at' (resetFsm .booting) 500).pins.now - (at' (resetFsm .booting) 500).mls.modeT).toNat ∧
    ((at' (resetFsm .booting) 499).pins.now - (at' (resetFsm .booting) 499).mls.modeT).toNat <
      (at' (resetFsm .booting) 499).cfg.bootTime.toNat := by decide

theorem witness_AbsentModeRegistersDoNotExist :
    (linked 1700).params.hasModeFsm = false ∧ exec .tick (linked 1700) = .next (after .tick (linked 1700)) := ⟨rfl, rfl⟩

theorem witness_ModeNeverReachesTheRelay :
    exec .tick (running 1700) = .next (after .tick (running 1700)) ∧
    exec .tick { running 1700 with mls := { (running 1700).mls with mode := .error } } =
      .next (after .tick { running 1700 with mls := { (running 1700).mls with mode := .error } }) := ⟨rfl, rfl⟩

theorem witness_ElapsedIsTheTrueInterval :
    4294967291 ≤ 4294967301 ∧ 4294967301 - 4294967291 < 2 ^ 32 ∧ 0 ≤ 4294967295 ∧ 4294967295 - 0 < 2 ^ 32 := by
  decide  -- section 3.1, and the last interval that is right

theorem witness_DesignConstraintsMaskExpectedLosses :
    Config.cfg0.meetsDesign 179 4 = true ∧ (linked 1600).cfg = Config.cfg0 ∧ (linked 1600).lv.valid = true ∧
    ((linked 1600).pins.now - (linked 1600).lv.lastRx).toNat ≤ 4 * Config.cfg0.heartbeat.toNat := by decide

/-- The three settings of the pins of a relay: PKENC, RX, and a POLL at 1004. -/
def relay (p : Params) : List Pins :=
  xmit p ⟨1, 0, 0x01, 0x0102, 0x11223344, 0b001010⟩ 1000 Config.cfg0 ++
    [{ rst := false, cmdValid := true, cmd := 0x70000000000000000000000000000000, now := 1004, cfgPort := Config.cfg0 }]

theorem witness_RelayDeliversTheSenderState :
    (∀ s ∈ [State.reset, resetB], s.rstHeld = false ∧ s.params.legal = true) ∧
    ∃ p0 ps, relay Config.params0 = p0 :: ps ∧
      ({ State.reset with pins := p0, script := ps } : State).pins ::
        ({ State.reset with pins := p0, script := ps } : State).script = relay State.reset.params :=
  ⟨by decide, _, _, rfl, rfl⟩

end Sys2Proof.Tests
end

section
/-! What no step writes, and how a property of the state is carried along a run. -/

namespace Sys2Proof.Machine

/-- The fields no operation writes: the parameters (R3, log 1), and what the environment drives (log 3, 4). -/
theorem exec_keeps_environment {i : Instr} {s t : State} (h : exec i s = .next t) :
    t.params = s.params ∧ t.pins = s.pins ∧ t.script = s.script ∧ t.rstHeld = s.rstHeld := by
  cases i with
  | bfx o =>
    simp only [exec, execBfx] at h
    split at h <;> cases h
    simp
  | sdec o =>
    simp only [exec, execSdec] at h
    split at h <;> cases h <;> simp
  | csum o =>
    simp only [exec, execCsum] at h
    split at h <;> cases h <;> simp
  | pkdec o =>
    simp only [exec, execPkdec] at h
    split at h <;> cases h <;> simp
  | reconf =>
    simp only [exec, execReconf] at h
    split at h <;> cases h
    simp
  | pkenc o => cases h; simp
  | rx o => cases h; simp
  | poll => cases h; simp
  | tick => cases h; simp
  | ovrd o => cases h; simp
  | stat => cases h; simp
  | tinit o => cases h; simp
  | arb o => cases h; simp

/-- No step writes a parameter: not a command, not the release of reset, not a step without a command. -/
theorem step_keeps_params {s t : State} (h : step s = .next t) : t.params = s.params := by
  obtain ⟨-, rfl⟩ | ⟨-, -, -, rfl⟩ | ⟨-, -, -, ⟨r, -, rfl⟩ | ⟨i, u, -, hexec, rfl⟩⟩ | ⟨-, -, -, rfl⟩ :=
    step_next_cases h
  · exact s.holdInReset_params
  · exact s.releaseReset_params
  · simp
  · obtain ⟨hparams, -⟩ := exec_keeps_environment hexec
    simpa using hparams
  · exact s.idle_params

/-- A run of `n + 1` steps that ends in a state is one step and a run of `n` steps from the state it leaves. -/
theorem run_succ_eq_next_iff (M : Host.Core) (n : Nat) (s t : M.State) :
    M.run (n + 1) s = .next t ↔ ∃ u, M.step s = .next u ∧ M.run n u = .next t := by
  rw [Host.Core.run]
  cases M.step s with
  | next u => simp
  | fault f => simp
  | refused r => simp

/-- The induction over runs: a property every step keeps holds where a run ends if it holds where the run begins. -/
theorem run_keeps {M : Host.Core} {P : M.State → Prop} (hstep : ∀ s t, M.step s = .next t → P s → P t) {n : Nat}
    {s t : M.State} (hrun : M.run n s = .next t) (hs : P s) : P t := by
  induction n generalizing s with
  | zero => cases hrun; exact hs
  | succ n ih =>
    obtain ⟨u, hu, hrun⟩ := (run_succ_eq_next_iff M n s t).mp hrun
    exact ih hrun (hstep s u hu hs)

/-- Settles O12: no step writes a parameter, and a run is made of steps. -/
theorem parametersAreFixedForARun : Obligations.ParametersAreFixedForARun := by
  intro n s t hrun
  have hstep : ∀ a b : State, step a = .next b → a.params = s.params → b.params = s.params :=
    fun a b hab ha => (step_keeps_params hab).trans ha
  exact run_keeps (M := Sys2Proof.core) hstep hrun rfl

end Sys2Proof.Machine
end

section
/-! What an operation that completes does to the state, said once, and the rows of the ownership table it gives. -/

namespace Sys2Proof.Machine

/-- What an operation that completes can do to the state: a reader writes the output ports alone, and each of the six
others writes what its own meaning says (R27, R67). -/
inductive Effect (s : State) : Instr → State → Prop
  | answerOnly (i : Instr) (a : Option Answer) (e : List SurfEvent) : Effect s i { s with answer := a, surf := e }
  | rx (o : FormatP) : Effect s (.rx o) ((s.mbPublish o.bytes o.len s.now o.qv o.q).respond .ok 0 [])
  | poll : Effect s .poll (s.packetStep.post.respond s.packetStep.status s.packetStep.data [])
  | tick : Effect s .tick (s.packetStep.post.afterPacket s.packetStep.status)
  | reconf (h : s.cfgRead.legal s.params.maxLen = true) :
      Effect s .reconf (({ s with cfg := s.cfgRead } : State).respond .ok 0 [surfConfigOf s.cfgRead])
  | ovrd (o : FormatV) :
      Effect s (.ovrd o) (({ s with ovr := { en := o.en, bits6 := .ofBits o.bits6 } } : State).respond .ok 0 [])
  | tinit (o : FormatI) : Effect s (.tinit o) ((s.reportTransport o.ok).respond .ok 0 [])

/-- The inversion of `exec`: an operation that completes has one of the effects above. -/
theorem exec_effect {i : Instr} {s t : State} (h : exec i s = .next t) : Effect s i t := by
  cases i with
  | bfx o =>
    simp only [exec, execBfx] at h
    split at h <;> cases h
    exact .answerOnly _ _ _
  | sdec o =>
    simp only [exec, execSdec] at h
    split at h <;> cases h <;> exact .answerOnly _ _ _
  | csum o =>
    simp only [exec, execCsum] at h
    split at h <;> cases h <;> exact .answerOnly _ _ _
  | pkdec o =>
    simp only [exec, execPkdec] at h
    split at h <;> cases h <;> exact .answerOnly _ _ _
  | reconf =>
    simp only [exec, execReconf] at h
    split at h <;> cases h
    exact .reconf ‹_›
  | pkenc o => cases h; exact .answerOnly _ _ _
  | stat => cases h; exact .answerOnly _ _ _
  | arb o => cases h; exact .answerOnly _ _ _
  | rx o => cases h; exact .rx o
  | poll => cases h; exact .poll
  | tick => cases h; exact .tick
  | ovrd o => cases h; exact .ovrd o
  | tinit o => cases h; exact .tinit o

/-- RX alone is issued from the notification context (R230). -/
theorem context_eq_notification_iff (i : Instr) : i.context = .notification ↔ ∃ o, i = .rx o := by
  cases i <;> simp [Instr.context]

/-- Settles O13: each effect writes the registers of its own row of the table. -/
theorem registersAreWrittenByTheirOwners : Obligations.RegistersAreWrittenByTheirOwners := by
  intro i s t h
  have hctx := context_eq_notification_iff i
  cases exec_effect h <;> simpa using hctx

end Sys2Proof.Machine
end

section
/-! Legal records and the state after reset. -/

namespace Sys2Proof

theorem Category.forall_iff {P : Category → Prop} :
    (∀ k, P k) ↔ P .turn ∧ P .charging ∧ P .autopilot ∧ P .track ∧ P .plugged := by
  constructor
  · exact fun h => ⟨h _, h _, h _, h _, h _⟩
  · rintro ⟨ht, hc, ha, hr, hp⟩ (_ | _ | _ | _ | _) <;> assumption

theorem Side.forall_iff {P : Side → Prop} : (∀ side, P side) ↔ P .left ∧ P .right := by
  constructor
  · exact fun h => ⟨h _, h _⟩
  · rintro ⟨hl, hr⟩ (_ | _) <;> assumption

/-- Settles O47: the checks of `CfgRec.legal` are those of R21, category by category and side by side. -/
theorem legalRecordsKeepTheHardConstraints : Obligations.LegalRecordsKeepTheHardConstraints := by
  intro maxLen c
  simp only [CfgRec.legal, Category.forall_iff, Side.forall_iff, PerCategory.get, PerSide.get, Bool.and_eq_true,
    decide_eq_true_eq, and_assoc]

end Sys2Proof

namespace Sys2Proof.Machine

/-- The vehicle state of R26 and of link loss fits both wire formats. -/
theorem VehicleState.fits_zero (fmt : PktFmt) : VehicleState.zero.fits fmt := by
  cases fmt
  · exact (rfl : Bits6.zero = bits6OfCodes .off .off)
  · exact ⟨rfl, rfl, rfl⟩

/-- The liveness record of R26 fits both wire formats. -/
theorem LivenessRecord.fits_zero (fmt : PktFmt) : LivenessRecord.zero.fits fmt := by
  cases fmt
  · exact (by decide : (0 : BitVec 32).toNat < 2 ^ 16)
  · exact (rfl : (0 : BitVec 32) = 0)

/-- The state of R26 meets the invariant: no packet has come, and the mode is BOOTING. -/
theorem MachineInv.resetAt (p : Params) (t0 : Time) {c : CfgRec} (hc : c.legal p.maxLen = true) :
    MachineInv (State.resetAt p t0 c) where
  cfgLegal := hc
  rxstatReceive := rfl
  vsFits := VehicleState.fits_zero p.fmt
  lvFits := LivenessRecord.fits_zero p.fmt
  beforeFirstPacket _ := ⟨rfl, rfl⟩
  modeNeedsPacket _ hmode := by simp [State.resetAt, ModeRegs.atReset] at hmode
  runningNeedsData _ hmode := by simp [State.resetAt, ModeRegs.atReset] at hmode
  dataNeedsPacket _ hdata := by simp [State.resetAt, ModeRegs.atReset] at hdata

/-- Settles O10; the record of log 2 is legal. -/
theorem resetStateMeetsTheInvariant : Obligations.ResetStateMeetsTheInvariant :=
  ⟨fun p t0 _ hc => MachineInv.resetAt p t0 hc,
    MachineInv.resetAt Config.params0 0 (by decide : Config.cfg0.legal Config.params0.maxLen = true)⟩

/-- The release of reset on a legal record (R240). -/
theorem step_of_release (s : State) (hrst : s.pins.rst = false) (hheld : s.rstHeld = true)
    (hlegal : s.pins.cfgPort.legal s.params.maxLen = true) : step s = .next s.releaseReset := by
  simp [step, State.cfgRead, hrst, hheld, hlegal]

/-- Settles O9: the record the release leaves is the table of R26. -/
theorem releaseOfResetSetsEveryRegister : Obligations.ReleaseOfResetSetsEveryRegister :=
  fun s hrst hheld hlegal => step_of_release s hrst hheld hlegal

end Sys2Proof.Machine
end

section
/-! Every step keeps the machine invariant. -/

namespace Sys2Proof.Machine

/-- The invariant speaks of the parameters and five registers alone. -/
theorem MachineInv.of_registers_eq {s t : State} (hs : MachineInv s) (hparams : t.params = s.params)
    (hcfg : t.cfg = s.cfg) (hrxstat : t.rxstat = s.rxstat) (hvs : t.vs = s.vs) (hlv : t.lv = s.lv)
    (hmls : t.mls = s.mls) : MachineInv t := by
  obtain ⟨h1, h2, h3, h4, h5, h6, h7, h8⟩ := hs
  constructor <;> simpa only [hparams, hcfg, hrxstat, hvs, hlv, hmls]

/-- What a wire format carries fits it (R97): the fields an accepted packet puts into `VS` and `LV`. -/
theorem pktDecode_fits {p : Params} {b : BitVec 96} {len : BitVec 4} {f : PktFields}
    (h : pktDecode p b len = .ok f) (rx : Time) (qv : Bool) (q : Byte) :
    VehicleState.fits p.fmt { bits6 := f.bits6, ls := f.left, rs := f.right, flags := f.flags } ∧
    LivenessRecord.fits p.fmt { valid := true, lastRx := rx, lastSeq := f.seq, qValid := qv, q := q,
                                senderClock := f.clock } := by
  cases hfmt : p.fmt with
  | a =>
    rw [pktDecode_a hfmt, pktDecodeA_ok_iff] at h
    obtain ⟨-, -, -, -, -, -, rfl⟩ := h
    exact ⟨rfl, word32_two_lt _ _⟩
  | b =>
    rw [pktDecode_b hfmt, pktDecodeB_ok_iff] at h
    obtain ⟨-, rfl⟩ := h
    exact ⟨⟨rfl, rfl, rfl⟩, rfl⟩

/-- After a packet the mode is RUNNING only with data seen: this packet's, or what RUNNING stood on before (R193). -/
theorem ModeRegs.onPacket_running {m : Bool} {rx : Time} {r : ModeRegs} (hr : r.mode = .running → r.dataV = true)
    (h : (r.onPacket m rx).mode = .running) : (r.onPacket m rx).dataV = true := by
  rw [ModeRegs.onPacket_mode] at h
  rw [ModeRegs.onPacket_dataV]
  cases m with
  | true => rfl
  | false =>
    split at h
    · cases h
    · exact hr h

/-- The packet sub-step keeps the invariant: an accepted packet is the one the mode and `DATA_V` ask for. -/
theorem MachineInv.packetStep {s : State} (hs : MachineInv s) : MachineInv s.packetStep.post := by
  cases hf : s.mb.fresh with
  | false => rwa [packetStep_of_not_fresh s hf]
  | true =>
    cases hd : pktDecode s.params s.mb.data s.mb.len with
    | error r =>
      have hrx := packetStep_status_isReceive s
      rw [packetStep_rejected s r hf hd] at hrx ⊢
      exact { hs with rxstatReceive := hrx }
    | ok f =>
      obtain ⟨hvs, hlv⟩ := pktDecode_fits hd s.mb.rxTime s.mb.qValid s.mb.q
      rw [packetStep_accepted s f hf hd]
      refine ⟨hs.cfgLegal, rfl, hvs, hlv, nofun, fun _ _ => rfl, fun hfsm => ?_, fun _ _ => rfl⟩
      have hfsm : s.params.hasModeFsm = true := hfsm
      simp only [hfsm, if_true]
      exact ModeRegs.onPacket_running (hs.runningNeedsData hfsm)

/-- The mode timers enter neither WAIT_DATA nor RUNNING but from those two, and RUNNING from itself alone (R194). -/
theorem ModeRegs.tickMode_connected {now : Time} {lv : LivenessRecord} {cfg : CfgRec} {r : ModeRegs} :
    (r.tickMode now lv cfg = .waitData ∨ r.tickMode now lv cfg = .running → r.mode = .waitData ∨ r.mode = .running) ∧
    (r.tickMode now lv cfg = .running → r.mode = .running) := by
  rcases ModeRegs.tickMode_cases now lv cfg r with h | ⟨-, h⟩ | ⟨-, h⟩ | ⟨hr, h | h⟩ <;> simp [*]

/-- Sub-steps 2 to 6 of an advancing tick keep the invariant. -/
theorem MachineInv.tickState {s : State} (hs : MachineInv s) : MachineInv s.tickState := by
  obtain ⟨hconn, hrun⟩ := ModeRegs.tickMode_connected (now := s.now) (lv := s.lv) (cfg := s.cfg) (r := s.mls)
  rw [tickState_eq]
  refine ⟨hs.cfgLegal, hs.rxstatReceive, ?vsFits, hs.lvFits, fun hv => ?before, fun hfsm => ?packet, fun hfsm => ?run,
    fun hfsm => ?data⟩
  case vsFits =>
    show VehicleState.fits s.params.fmt (if s.alive s.now then s.vs else .zero)
    split
    · exact hs.vsFits
    · exact VehicleState.fits_zero _
  case before =>
    obtain ⟨hvs, hlv⟩ := hs.beforeFirstPacket hv
    exact ⟨by simp [hvs], hlv⟩
  all_goals
    have hfsm : s.params.hasModeFsm = true := hfsm
    simp only [hfsm, if_true]
  case packet => exact fun hmode => hs.modeNeedsPacket hfsm (hconn hmode)
  case run => exact fun hmode => hs.runningNeedsData hfsm (hrun hmode)
  case data => exact hs.dataNeedsPacket hfsm

/-- A tick's gate and what follows it keep the invariant. -/
theorem MachineInv.afterPacket {s : State} (hs : MachineInv s) (st : Status) : MachineInv (s.afterPacket st) := by
  obtain ⟨-, h⟩ | ⟨-, h⟩ := afterPacket_cases s st
  · rw [h]
    exact hs.of_registers_eq rfl rfl rfl rfl rfl rfl
  · rw [h]
    exact hs.tickState.of_registers_eq rfl rfl rfl rfl rfl rfl

/-- A report of the transport keeps the invariant: WAIT_LINK and ERROR ask for nothing (R192). -/
theorem MachineInv.reportTransport {s : State} (hs : MachineInv s) (ok : Bool) : MachineInv (s.reportTransport ok) := by
  unfold State.reportTransport
  split
  · have hmode : ∀ m : Mode, m = .waitData ∨ m = .running → (if ok then Mode.waitLink else .error) ≠ m := by
      cases ok <;> simp
    exact { hs with
      modeNeedsPacket := fun _ h => (h.elim (hmode _ (.inl rfl)) (hmode _ (.inr rfl))).elim
      runningNeedsData := fun _ h => (hmode _ (.inr rfl) h).elim }
  · exact hs

/-- Every operation that completes keeps the invariant. -/
theorem MachineInv.exec {i : Instr} {s t : State} (hs : MachineInv s) (h : exec i s = .next t) : MachineInv t := by
  cases exec_effect h with
  | answerOnly i a e => exact hs.of_registers_eq rfl rfl rfl rfl rfl rfl
  | rx o => exact hs.of_registers_eq rfl rfl rfl rfl rfl rfl
  | ovrd o => exact hs.of_registers_eq rfl rfl rfl rfl rfl rfl
  | poll => exact hs.packetStep.of_registers_eq rfl rfl rfl rfl rfl rfl
  | tick => exact hs.packetStep.afterPacket _
  | tinit o => exact (hs.reportTransport o.ok).of_registers_eq rfl rfl rfl rfl rfl rfl
  | reconf hlegal => exact { hs with cfgLegal := hlegal }

/-- The environment's next setting of the pins is no part of the invariant. -/
theorem MachineInv.advancePins {s : State} (hs : MachineInv s) : MachineInv s.advancePins :=
  hs.of_registers_eq (by simp) (by simp) (by simp) (by simp) (by simp) (by simp)

/-- Settles O11, along the cases of a step. -/
theorem everyStepKeepsTheInvariant : Obligations.EveryStepKeepsTheInvariant := by
  intro s t hs h
  obtain ⟨-, rfl⟩ | ⟨-, -, hlegal, rfl⟩ | ⟨-, -, -, ⟨r, -, rfl⟩ | ⟨i, u, -, hexec, rfl⟩⟩ | ⟨-, -, -, rfl⟩ :=
    step_next_cases h
  · have hheld : MachineInv { s with rstHeld := true, answer := none, surf := [] } :=
      hs.of_registers_eq rfl rfl rfl rfl rfl rfl
    exact hheld.advancePins
  · exact (MachineInv.resetAt s.params s.now hlegal).of_registers_eq rfl rfl rfl rfl rfl rfl
  · have hbad : MachineInv s.answerBadOp := hs.of_registers_eq rfl rfl rfl rfl rfl rfl
    exact hbad.advancePins
  · exact (hs.exec hexec).advancePins
  · have hidle : MachineInv { s with answer := none, surf := [] } := hs.of_registers_eq rfl rfl rfl rfl rfl rfl
    exact hidle.advancePins

end Sys2Proof.Machine
end

section
/-! The design constraints: what a hold and a dead window of the required size mask (R22). -/

namespace Sys2Proof.Machine

/-- A false sample no later than `HOLD` after the last true one changes nothing (R130). -/
theorem debounceStep_false_of_le {hold : BitVec 32} {d : DebounceRec} {t : Time}
    (h : (t - d.lastTrue).toNat ≤ hold.toNat) : debounceStep hold d false t = d := by
  obtain ⟨-, hlt, -⟩ | ⟨-, heq⟩ := debounceStep_false_cases hold d t
  · omega
  · exact heq

/-- Any number of such samples changes nothing (R131). -/
theorem foldl_debounceStep_false_of_le {hold : BitVec 32} {d : DebounceRec} {ticks : List Time}
    (h : ∀ t ∈ ticks, (t - d.lastTrue).toNat ≤ hold.toNat) :
    ticks.foldl (fun d t => debounceStep hold d false t) d = d := by
  induction ticks with
  | nil => rfl
  | cons t ticks ih =>
    obtain ⟨ht, hticks⟩ := List.forall_mem_cons.mp h
    rw [List.foldl_cons, debounceStep_false_of_le ht]
    exact ih hticks

/-- The design constraints R22 as comparisons of numbers. -/
theorem meetsDesign_iff (gap heartbeats : Nat) (c : CfgRec) :
    c.meetsDesign gap heartbeats = true ↔
      (∀ k : Category, k ≠ .turn → c.period.turn.toNat < (c.period.get k).toNat) ∧
      2 * c.hold.toNat < c.period.turn.toNat ∧ gap < c.hold.toNat ∧
      heartbeats * c.heartbeat.toNat ≤ c.deadWindow.toNat ∧ c.dataTimeout.toNat < c.linkTimeout.toNat := by
  simp [CfgRec.meetsDesign, Category.forall_iff, PerCategory.get, BitVec.lt_def, and_assoc]

/-- Settles O58: the gap is below `HOLD`, and the heartbeats are within the dead window. -/
theorem designConstraintsMaskExpectedLosses : Obligations.DesignConstraintsMaskExpectedLosses := by
  intro gap heartbeats c hc
  obtain ⟨hperiod, hturn, hgap, hwindow, -⟩ := (meetsDesign_iff gap heartbeats c).mp hc
  refine ⟨fun t0 ticks hticks => ?_, hturn, hperiod, fun s hcfg hvalid hnow => ?_⟩
  · exact foldl_debounceStep_false_of_le fun t ht => (hticks t ht).trans hgap.le
  · subst hcfg
    exact (alive_iff s _).mpr ⟨hvalid, hnow.trans hwindow⟩

end Sys2Proof.Machine
end

section
/-! The two sides of the debouncer do not reach each other (R16). -/

namespace Sys2Proof.Machine

/-- The packet sub-step carries the debounce records along and does not read them. -/
theorem packetStep_post_with_db (s : State) (d : PerSide DebounceRec) :
    ({ s with db := d } : State).packetStep.post = { s.packetStep.post with db := d } := by
  cases hf : s.mb.fresh with
  | false => rw [packetStep_of_not_fresh s hf, packetStep_of_not_fresh { s with db := d } hf]
  | true =>
    cases hd : pktDecode s.params s.mb.data s.mb.len with
    | error r => rw [packetStep_rejected s r hf hd, packetStep_rejected { s with db := d } r hf hd]
    | ok f => rw [packetStep_accepted s f hf hd, packetStep_accepted { s with db := d } f hf hd]

/-- The raw sample of a side that sub-step 6 of an advancing tick debounces (R132): the override's, or that of `VS` after
link loss. -/
def State.tickSample (s : State) (side : Side) : Bool :=
  ({ s with vs := if s.alive s.now then s.vs else .zero } : State).sample side

/-- What a tick leaves in the record of a side is a function of that side's record and of no other (R130, R172). -/
theorem afterPacket_db_get (s : State) (st : Status) (side : Side) :
    (s.afterPacket st).db.get side =
      if s.gateOpen then debounceStep s.cfg.hold (s.db.get side) (s.tickSample side) s.now else s.db.get side := by
  obtain ⟨hg, h⟩ | ⟨hg, h⟩ := afterPacket_cases s st <;> rw [h, hg]
  · rfl
  · rw [State.emitFrame_db, tickState_eq]
    cases side <;> rfl

/-- Two states that differ in the debounce records, but not in that of one side, have the same record of that side
after any operation. -/
theorem exec_db_get_congr {i : Instr} {s t t' : State} {d : PerSide DebounceRec} {side : Side}
    (hd : d.get side = s.db.get side) (h : exec i s = .next t) (h' : exec i { s with db := d } = .next t') :
    t'.db.get side = t.db.get side := by
  by_cases hi : i = .tick
  · subst hi
    cases h
    cases h'
    rw [afterPacket_db_get, afterPacket_db_get, packetStep_post_with_db, s.packetStep_post_db, ← hd]
    rfl
  · have hdb : ∀ {a b : State}, exec i a = .next b → b.db = a.db := by
      intro a b hab
      obtain ⟨-, -, -, -, htick, -⟩ := registersAreWrittenByTheirOwners i a b hab
      exact not_imp_comm.mp htick hi
    rw [hdb h, hdb h']
    exact hd

/-- Settles O39: each side's record is kept when the other side's is replaced. -/
theorem debounceSidesAreIndependent : Obligations.DebounceSidesAreIndependent :=
  fun _ _ _ _ _ => ⟨exec_db_get_congr (side := .left) rfl, exec_db_get_congr (side := .right) rfl⟩

end Sys2Proof.Machine
end

section
/-! Without the mode state machine the mode registers are neither written nor read (R190): each sub-step carries
another value of them along. -/

namespace Sys2Proof.Machine

/-- Without the state machine every rule reads RUNNING (R24, R190). -/
theorem modeRead_of_absent {s : State} (h : s.params.hasModeFsm = false) : s.modeRead = .running := by
  simp [State.modeRead, h]

theorem packetStep_with_absent_mls {s : State} (h : s.params.hasModeFsm = false) (m : ModeRegs) :
    ({ s with mls := m } : State).packetStep =
      { s.packetStep with post := { s.packetStep.post with mls := m } } := by
  cases hf : s.mb.fresh with
  | false => rw [packetStep_of_not_fresh s hf, packetStep_of_not_fresh { s with mls := m } hf]
  | true =>
    cases hd : pktDecode s.params s.mb.data s.mb.len with
    | error r => rw [packetStep_rejected s r hf hd, packetStep_rejected { s with mls := m } r hf hd]
    | ok f =>
      rw [packetStep_accepted s f hf hd, packetStep_accepted { s with mls := m } f hf hd]
      simp [h]

theorem tickState_with_absent_mls {s : State} (h : s.params.hasModeFsm = false) (m : ModeRegs) :
    ({ s with mls := m } : State).tickState = { s.tickState with mls := m } := by
  rw [tickState_eq, tickState_eq]
  simp only [h]
  rfl

theorem emitFrame_with_absent_mls {s : State} (h : s.params.hasModeFsm = false) (m : ModeRegs) (st : Status) :
    ({ s with mls := m } : State).emitFrame st = { s.emitFrame st with mls := m } := by
  have hm : ({ s with mls := m } : State).modeRead = .running := modeRead_of_absent h
  simp only [State.emitFrame, tickData, State.frameEvents, State.drawsOfTick, hm, modeRead_of_absent h]
  rfl

theorem afterPacket_with_absent_mls {s : State} (h : s.params.hasModeFsm = false) (m : ModeRegs) (st : Status) :
    ({ s with mls := m } : State).afterPacket st = { s.afterPacket st with mls := m } := by
  have hg : ({ s with mls := m } : State).gateOpen = s.gateOpen := rfl
  unfold State.afterPacket
  rw [hg]
  cases s.gateOpen with
  | false => rfl
  | true =>
    simp only [if_true]
    rw [tickState_with_absent_mls h, emitFrame_with_absent_mls (by simpa using h)]

theorem reportTransport_with_absent_mls {s : State} (h : s.params.hasModeFsm = false) (m : ModeRegs) (ok : Bool) :
    ({ s with mls := m } : State).reportTransport ok = { s.reportTransport ok with mls := m } := by
  simp [State.reportTransport, h]

theorem statData_with_absent_mls {s : State} (h : s.params.hasModeFsm = false) (m : ModeRegs) :
    statData { s with mls := m } = statData s := by
  have hm : ({ s with mls := m } : State).modeRead = .running := modeRead_of_absent h
  simp only [statData, hm, modeRead_of_absent h]
  rfl

/-- Without the state machine another value of the mode registers is carried along by every operation. -/
theorem exec_with_absent_mls {i : Instr} {s t : State} (hfsm : s.params.hasModeFsm = false) (h : exec i s = .next t)
    (m : ModeRegs) : exec i { s with mls := m } = .next { t with mls := m } := by
  cases i with
  | bfx o =>
    simp only [exec, execBfx] at h
    split at h <;> cases h
    exact if_pos ‹_›
  | csum o =>
    simp only [exec, execCsum] at h
    split at h <;> cases h
    · exact if_pos ‹_›
    · exact if_neg ‹_›
  | reconf =>
    simp only [exec, execReconf] at h
    split at h <;> cases h
    exact if_pos ‹_›
  | sdec o =>
    simp only [exec, execSdec] at h ⊢
    split at h <;> cases h <;> rfl
  | pkdec o =>
    simp only [exec, execPkdec] at h ⊢
    split at h <;> cases h <;> rfl
  | pkenc o => cases h; rfl
  | rx o => cases h; rfl
  | ovrd o => cases h; rfl
  | arb o => cases h; rfl
  | stat =>
    cases h
    rw [exec, execStat, statData_with_absent_mls hfsm]
  | tinit o =>
    cases h
    exact congrArg (fun u : State => Host.Outcome.next (u.respond .ok 0 []))
      (reportTransport_with_absent_mls hfsm m o.ok)
  | poll =>
    cases h
    rw [exec_poll, packetStep_with_absent_mls hfsm]
    rfl
  | tick =>
    cases h
    rw [exec_tick, packetStep_with_absent_mls hfsm, afterPacket_with_absent_mls (by simpa using hfsm)]

/-- Settles O55; that no operation writes the mode registers follows, since it carries along the value they have. -/
theorem absentModeRegistersDoNotExist : Obligations.AbsentModeRegistersDoNotExist := by
  intro i s t m hfsm h
  have hsame : t = { t with mls := s.mls } :=
    Host.Outcome.next.inj (h.symm.trans (exec_with_absent_mls hfsm h s.mls))
  have hmls := congrArg State.mls hsame
  exact ⟨hmls, exec_with_absent_mls hfsm h m⟩

end Sys2Proof.Machine
end

section
/-! What RX leaves (R110), and why nothing of an earlier packet outlives a second RX (R53). -/

namespace Sys2Proof.Machine

/-- Settles O26: a publish writes every field of the cell. -/
theorem rxOverwritesTheMailbox : Obligations.RxOverwritesTheMailbox :=
  fun _ _ => rfl

/-- RX reads neither the cell nor the last answer and its events: other values of them do not matter. -/
theorem exec_rx_forgets (s : State) (o : FormatP) (mb : Mailbox) (answer : Option Answer) (surf : List SurfEvent) :
    exec (.rx o) { s with mb := mb, answer := answer, surf := surf } = exec (.rx o) s := by
  rw [rxOverwritesTheMailbox, rxOverwritesTheMailbox]

/-- A second RX, under any pins, answers and leaves what it would without the first. -/
theorem exec_rx_after_rx {s a : State} {o1 : FormatP} (h : exec (.rx o1) s = .next a) (o2 : FormatP) (q : Pins) :
    exec (.rx o2) { a with pins := q } = exec (.rx o2) { s with pins := q } := by
  rw [rxOverwritesTheMailbox] at h
  cases h
  exact exec_rx_forgets { s with pins := q } o2 _ _ _

/-- Settles O27: the two runs end in one state, so a POLL from it cannot tell them apart. -/
theorem earlierPublishIsLostWithoutTrace : Obligations.EarlierPublishIsLostWithoutTrace := by
  intro s a b b' o1 o2 q hfirst hsecond halone
  have hsame : b = b' := by
    rw [exec_rx_after_rx hfirst, halone] at hsecond
    exact (Host.Outcome.next.inj hsecond).symm
  have hmb : b.mb.data = o2.bytes ∧ b.mb.rxTime = q.now := by
    rw [rxOverwritesTheMailbox] at hsecond
    cases hsecond
    exact ⟨rfl, rfl⟩
  exact ⟨hsame, fun _ => by rw [hsame], hmb⟩

end Sys2Proof.Machine
end

section
/-! The command word (R61 to R68): the fields of a format adjoin from bit 0 up, so the fields read from a word and laid out
again are the low bits of the word; and the fields laid out by the encoder are read back. -/

namespace Sys2Proof

/-- Two adjoining slices of a word, each at its place, are one slice. -/
theorem place_extract_append {m : Nat} (w : BitVec m) (n a b : Nat) :
    place n 0 (w.extractLsb' 0 a) ||| place n a (w.extractLsb' a b) = place n 0 (w.extractLsb' 0 (a + b)) := by
  apply BitVec.eq_of_getLsbD_eq
  intro i hi
  simp only [getLsbD_or', getLsbD_place, BitVec.getLsbD_extractLsb', hi, decide_true, Bool.true_and, Nat.zero_le,
    Nat.sub_zero, Nat.zero_add]
  by_cases ha : i < a
  · have hna : ¬ a ≤ i := by omega
    have hab : i < a + b := by omega
    simp [ha, hna, hab]
  · have hle : a ≤ i := by omega
    have hsub : i - a < b ↔ i < a + b := by omega
    simp [ha, hle, hsub]

/-- A one-bit field laid out is the slice of one bit. -/
theorem placeBit_bitOf (n k : Nat) (w : CmdWord) : placeBit n k (bitOf w k) = place n k (w.extractLsb' k 1) := by
  have hbit : BitVec.ofBool (bitOf w k) = w.extractLsb' k 1 := by
    apply BitVec.eq_of_getLsbD_eq
    intro i hi
    obtain rfl : i = 0 := by omega
    simp [bitOf]
  rw [placeBit, hbit]

theorem place_extract_zero {m : Nat} (n lo k : Nat) (w : BitVec m) : place n lo (w.extractLsb' k 0) = 0 := by
  apply BitVec.eq_of_getLsbD_eq
  intro i _
  simp [getLsbD_place]

/-- A field laid out at the bottom of a word that is itself laid out at the bottom of another. -/
theorem place_place_bottom {w : Nat} (n m : Nat) (v : BitVec w) (h : w ≤ m) : place n 0 (place m 0 v) = place n 0 v := by
  apply BitVec.eq_of_getLsbD_eq
  intro i hi
  simp only [getLsbD_place, hi, Nat.zero_le, Nat.sub_zero, decide_true, Bool.true_and, Bool.and_eq_right_iff_imp,
    decide_eq_true_eq]
  exact fun hv => lt_of_lt_of_le (BitVec.lt_of_getLsbD hv) h

theorem packX_parseX (w : CmdWord) : packX (parseX w) = place 124 0 (w.extractLsb' 0 77) := by
  simp only [packX, parseX, place_extract_append]

theorem packF_parseF (w : CmdWord) : packF (parseF w) = place 124 0 (w.extractLsb' 0 79) := by
  simp only [packF, parseF, place_extract_append]

theorem packP_parseP (w : CmdWord) : packP (parseP w) = place 124 0 (w.extractLsb' 0 109) := by
  simp only [packP, parseP, placeBit_bitOf, place_extract_append]

theorem packE_parseE (w : CmdWord) : packE (parseE w) = place 124 0 (w.extractLsb' 0 82) := by
  simp only [packE, layoutE, parseE, place_extract_append]
  exact place_place_bottom _ _ _ (by decide)

theorem packQ_parseQ (w : CmdWord) : packQ (parseQ w) = place 124 0 (w.extractLsb' 0 11) := by
  simp only [packQ, parseQ, placeBit_bitOf, place_extract_append]

theorem packV_parseV (w : CmdWord) : packV (parseV w) = place 124 0 (w.extractLsb' 0 7) := by
  simp only [packV, parseV, placeBit_bitOf, place_extract_append]

theorem packI_parseI (w : CmdWord) : packI (parseI w) = place 124 0 (w.extractLsb' 0 1) := by
  simp only [packI, parseI, placeBit_bitOf]

/-- The opcode of a word over its low `n` bits is what the mask of its assigned bits leaves of it. -/
theorem opcode_over_low_bits (w : CmdWord) (n : Nat) (hn : n ≤ 124) :
    place 128 124 (opOf w) ||| place 128 0 (place 124 0 (w.extractLsb' 0 n)) = w &&& opAndLow n := by
  rw [place_place_bottom _ _ _ hn]
  apply BitVec.eq_of_getLsbD_eq
  intro i hi
  simp only [getLsbD_or', getLsbD_place, BitVec.getLsbD_and, getLsbD_opAndLow n hn i hi, opOf,
    BitVec.getLsbD_extractLsb']
  by_cases hop : 124 ≤ i
  · have hlow : ¬ i < n := by omega
    have hi4 : i - 124 < 4 := by omega
    simp [hi, hop, hlow, hi4]
  · by_cases hlow : i < n <;> simp [hi, hop, hlow]

/-! ### Reading an operation's operands from a word -/

/-- The same operation with the operands that a command word holds (R61 to R65). -/
def Instr.withOperandsOf (w : CmdWord) : Instr → Instr
  | .bfx _ => .bfx (parseX w)
  | .sdec _ => .sdec (parseF w)
  | .csum _ => .csum (parseP w)
  | .pkenc _ => .pkenc (parseE w)
  | .pkdec _ => .pkdec (parseP w)
  | .rx _ => .rx (parseP w)
  | .poll => .poll
  | .tick => .tick
  | .reconf => .reconf
  | .ovrd _ => .ovrd (parseV w)
  | .stat => .stat
  | .tinit _ => .tinit (parseI w)
  | .arb _ => .arb (parseQ w)

@[simp] theorem Instr.withOperandsOf_opcode (w : CmdWord) (i : Instr) : (i.withOperandsOf w).opcode = i.opcode := by
  cases i <;> rfl

@[simp] theorem Instr.withOperandsOf_assignedBits (w : CmdWord) (i : Instr) :
    (i.withOperandsOf w).assignedBits = i.assignedBits := by
  cases i <;> rfl

/-- A word that carries an operation's opcode decodes to it, with the operands read from the word. -/
theorem decode_of_opOf_eq {w : CmdWord} {i : Instr} (h : opOf w = i.opcode) : decode w = .ok (i.withOperandsOf w) := by
  cases i <;> rw [decode, h] <;> rfl

/-- A word decodes only to an operation whose opcode it carries. -/
theorem opOf_of_decode {w : CmdWord} {i : Instr} (h : decode w = .ok i) : opOf w = i.opcode := by
  unfold decode at h
  split at h <;> cases h <;> exact BitVec.eq_of_toNat_eq ‹_›

/-- The decoder in one equivalence: the opcode and the operands of the operation are those of the word. -/
theorem decode_eq_ok_iff {w : CmdWord} {i : Instr} : decode w = .ok i ↔ opOf w = i.opcode ∧ i.withOperandsOf w = i := by
  constructor
  · intro h
    have hop := opOf_of_decode h
    exact ⟨hop, Except.ok.inj ((decode_of_opOf_eq hop).symm.trans h)⟩
  · rintro ⟨hop, hoperands⟩
    rw [decode_of_opOf_eq hop, hoperands]

/-! ### The encoder: its fields are read back -/

@[simp] theorem opOf_encode (i : Instr) : opOf (encode i) = i.opcode := Laws.EncodeOpcode.opOf_layout _ _

/-- Below the opcode the command word is the operand field. -/
theorem extract_encode (i : Instr) (lo k : Nat) (h : lo + k ≤ 124) :
    (encode i).extractLsb' lo k = i.operandField.extractLsb' lo k := by
  rw [encode, extract_or, extract_place_disjoint _ _ _ _ _ (.inl h),
    extract_place_within _ _ _ _ _ (Nat.zero_le lo) (by omega) (by decide), Nat.sub_zero, BitVec.zero_or]

theorem bitOf_encode (i : Instr) (k : Nat) (h : k < 124) : bitOf (encode i) k = i.operandField.getLsbD k := by
  rw [bitOf, encode, getLsbD_or', getLsbD_place_disjoint _ _ _ _ (.inl h),
    getLsbD_place_within _ _ _ _ (Nat.zero_le k) (by omega) (by decide), Nat.sub_zero, Bool.false_or]

theorem parseX_encode {i : Instr} {o : FormatX} (h : i.operandField = packX o) : parseX (encode i) = o := by
  simp (disch := decide) [parseX, extract_encode, h, packX, extract_or, extract_place_same, extract_place_disjoint]

theorem parseF_encode {i : Instr} {o : FormatF} (h : i.operandField = packF o) : parseF (encode i) = o := by
  simp (disch := decide) [parseF, extract_encode, h, packF, extract_or, extract_place_same, extract_place_disjoint]

theorem parseP_encode {i : Instr} {o : FormatP} (h : i.operandField = packP o) : parseP (encode i) = o := by
  simp (disch := decide) only [parseP, extract_encode, bitOf_encode, h, packP, extract_or, getLsbD_or',
    extract_place_same, extract_place_disjoint, extract_placeBit_disjoint, getLsbD_place_disjoint,
    getLsbD_placeBit_same, BitVec.zero_or, BitVec.or_zero, Bool.false_or, Bool.or_false]

theorem parseE_encode {i : Instr} {o : FormatE} (h : i.operandField = packE o) : parseE (encode i) = o := by
  simp (disch := decide) [parseE, extract_encode, h, packE, layoutE, extract_place_within, extract_or,
    extract_place_disjoint]

theorem parseQ_encode {i : Instr} {o : FormatQ} (h : i.operandField = packQ o) : parseQ (encode i) = o := by
  simp (disch := decide) only [parseQ, extract_encode, bitOf_encode, h, packQ, extract_or, getLsbD_or',
    extract_place_same, extract_place_disjoint, extract_placeBit_disjoint, getLsbD_place_disjoint,
    getLsbD_placeBit_same, BitVec.zero_or, BitVec.or_zero, Bool.false_or, Bool.or_false]

theorem parseV_encode {i : Instr} {o : FormatV} (h : i.operandField = packV o) : parseV (encode i) = o := by
  simp (disch := decide) only [parseV, extract_encode, bitOf_encode, h, packV, extract_or, getLsbD_or',
    extract_place_same, extract_placeBit_disjoint, getLsbD_place_disjoint, getLsbD_placeBit_same, BitVec.or_zero,
    Bool.false_or]

theorem parseI_encode {i : Instr} {o : FormatI} (h : i.operandField = packI o) : parseI (encode i) = o := by
  simp (disch := decide) only [parseI, bitOf_encode, h, packI, getLsbD_placeBit_same]

/-- The operands read from an operation's own command word are its operands. -/
theorem Instr.withOperandsOf_encode (i : Instr) : i.withOperandsOf (encode i) = i := by
  cases i with
  | bfx o => exact congrArg Instr.bfx (parseX_encode rfl)
  | sdec o => exact congrArg Instr.sdec (parseF_encode rfl)
  | csum o => exact congrArg Instr.csum (parseP_encode rfl)
  | pkenc o => exact congrArg Instr.pkenc (parseE_encode rfl)
  | pkdec o => exact congrArg Instr.pkdec (parseP_encode rfl)
  | rx o => exact congrArg Instr.rx (parseP_encode rfl)
  | poll => rfl
  | tick => rfl
  | reconf => rfl
  | ovrd o => exact congrArg Instr.ovrd (parseV_encode rfl)
  | stat => rfl
  | tinit o => exact congrArg Instr.tinit (parseI_encode rfl)
  | arb o => exact congrArg Instr.arb (parseQ_encode rfl)

/-- Settles O1: the word carries the opcode, and each field is read back at its place. -/
theorem decodeOfEncodeGivesTheOperation : Obligations.DecodeOfEncodeGivesTheOperation :=
  fun i => decode_eq_ok_iff.mpr ⟨opOf_encode i, i.withOperandsOf_encode⟩

/-- Distinct operations have distinct command words. -/
theorem encode_injective {i j : Instr} (h : encode i = encode j) : i = j :=
  Except.ok.inj <| calc
    .ok i = decode (encode i) := (decodeOfEncodeGivesTheOperation i).symm
    _ = decode (encode j) := congrArg decode h
    _ = .ok j := decodeOfEncodeGivesTheOperation j

/-! ### Reserved bits -/

theorem encode_of_operandField {w : CmdWord} {i : Instr} {n : Nat} (hn : n ≤ 124) (hop : opOf w = i.opcode)
    (hfield : i.operandField = place 124 0 (w.extractLsb' 0 n)) : encode i = w &&& opAndLow n := by
  rw [encode, ← hop, hfield, opcode_over_low_bits w n hn]

/-- Encoding the operands of a word keeps its assigned bits and clears the reserved ones. -/
theorem encode_withOperandsOf {w : CmdWord} {i : Instr} (hop : opOf w = i.opcode) :
    encode (i.withOperandsOf w) = w &&& i.assignedBits := by
  have hnone : (0 : BitVec 124) = place 124 0 (w.extractLsb' 0 0) := (place_extract_zero _ _ _ _).symm
  cases i with
  | bfx o => exact encode_of_operandField (by decide) hop (packX_parseX w)
  | sdec o => exact encode_of_operandField (by decide) hop (packF_parseF w)
  | csum o => exact encode_of_operandField (by decide) hop (packP_parseP w)
  | pkenc o => exact encode_of_operandField (by decide) hop (packE_parseE w)
  | pkdec o => exact encode_of_operandField (by decide) hop (packP_parseP w)
  | rx o => exact encode_of_operandField (by decide) hop (packP_parseP w)
  | poll => exact encode_of_operandField (by decide) hop hnone
  | tick => exact encode_of_operandField (by decide) hop hnone
  | reconf => exact encode_of_operandField (by decide) hop hnone
  | ovrd o => exact encode_of_operandField (by decide) hop (packV_parseV w)
  | stat => exact encode_of_operandField (by decide) hop hnone
  | tinit o => exact encode_of_operandField (by decide) hop (packI_parseI w)
  | arb o => exact encode_of_operandField (by decide) hop (packQ_parseQ w)

theorem opOf_and_opAndLow (w : CmdWord) {n : Nat} (hn : n ≤ 124) : opOf (w &&& opAndLow n) = opOf w := by
  apply BitVec.eq_of_getLsbD_eq
  intro j hj
  have hlt : 124 + j < 128 := by omega
  simp [opOf, hj, getLsbD_opAndLow n hn _ hlt]

/-- The opcode is among the assigned bits of every operation. -/
theorem opOf_and_assignedBits (w : CmdWord) (i : Instr) : opOf (w &&& i.assignedBits) = opOf w := by
  cases i <;> exact opOf_and_opAndLow w (by decide)

/-- The decoder by the encoder: a word decodes to an operation exactly when its assigned bits are the operation's
command word. -/
theorem decode_eq_ok_iff_encode {w : CmdWord} {i : Instr} :
    decode w = .ok i ↔ encode i = w &&& i.assignedBits := by
  constructor
  · intro h
    obtain ⟨hop, hoperands⟩ := decode_eq_ok_iff.mp h
    have henc := encode_withOperandsOf hop
    rwa [hoperands] at henc
  · intro h
    have hop : opOf w = i.opcode := by rw [← opOf_and_assignedBits w i, ← h, opOf_encode]
    exact decode_eq_ok_iff.mpr ⟨hop, encode_injective ((encode_withOperandsOf hop).trans h.symm)⟩

/-- Settles O2: the assigned bits of a word say which operation it decodes to. -/
theorem reservedBitsAreIgnored : Obligations.ReservedBitsAreIgnored := by
  intro w i h
  have henc := decode_eq_ok_iff_encode.mp h
  exact ⟨opOf_of_decode h, henc, fun w' hsame => decode_eq_ok_iff_encode.mpr (henc.trans hsame.symm)⟩

/-! ### Words that are no operation, and words of the spec -/

/-- The decoder rejects exactly the three reserved opcodes (R67, R68). -/
theorem decode_rejects_iff (w : CmdWord) :
    (∃ r, decode w = .error r) ↔ opOf w = 0x0 ∨ opOf w = 0xE ∨ opOf w = 0xF := by
  have hlt := (opOf w).isLt
  simp only [decode, ← BitVec.toNat_inj, BitVec.reduceToNat]
  split
  case h_14 =>
    simp only [imp_false] at *
    exact iff_of_true ⟨_, rfl⟩ (by omega)
  all_goals simp [*]

/-- Settles O5: each of the nine words is evaluated. -/
theorem commandWordsOfTheSpecDecode : Obligations.CommandWordsOfTheSpecDecode := by
  unfold Obligations.CommandWordsOfTheSpecDecode
  decide

end Sys2Proof
end

section
/-! One step of the block, by what is on the command port (R60, R68). -/

namespace Sys2Proof.Machine

theorem runCommand_of_ok {s : State} {i : Instr} (h : decode s.pins.cmd = .ok i) : runCommand s = exec i s := by
  simp only [runCommand, h]

theorem runCommand_of_error {s : State} {r : DecodeReject} (h : decode s.pins.cmd = .error r) :
    runCommand s = .next s.answerBadOp := by
  simp only [runCommand, h]

/-- A CSUM of more than twelve lanes is answered as a reserved opcode is (R68, R91). -/
theorem exec_csum_overlong {o : FormatP} (h : 12 < o.len.toNat) (s : State) :
    exec (.csum o) s = .next s.answerBadOp :=
  if_pos h

section
variable {s : State} (hrst : s.pins.rst = false) (hheld : s.rstHeld = false)
include hrst hheld

theorem step_of_runCommand_next (hvalid : s.pins.cmdValid = true) {t : State} (h : runCommand s = .next t) :
    step s = .next t.advancePins := by
  rw [step_of_command s hrst hheld hvalid, h]

theorem step_of_runCommand_refused (hvalid : s.pins.cmdValid = true) {r : Refusal} (h : runCommand s = .refused r) :
    step s = .refused r := by
  rw [step_of_command s hrst hheld hvalid, h]

theorem step_of_no_command (hvalid : s.pins.cmdValid = false) : step s = .next s.idle := by
  simp [step, hrst, hheld, hvalid]

end

theorem advancePins_of_script_cons {s : State} {p : Pins} {ps : List Pins} (h : s.script = p :: ps) :
    s.advancePins = { s with pins := p, script := ps } := by
  simp only [State.advancePins, h]

theorem advancePins_of_script_nil {s : State} (h : s.script = []) :
    s.advancePins = { s with pins := { s.pins with rst := false, cmdValid := false } } := by
  simp only [State.advancePins, h]

/-- Settles O3: the command answers BAD_OP alone, and the step then moves the pins. -/
theorem illegalEncodingsAnswerBadOp : Obligations.IllegalEncodingsAnswerBadOp := by
  refine ⟨decode_rejects_iff, fun s hrst hheld hvalid hillegal => ?_⟩
  have hrun : runCommand s = .next s.answerBadOp := by
    obtain ⟨r, hreject⟩ | ⟨o, hcsum, hlen⟩ := hillegal
    · exact runCommand_of_error hreject
    · rw [runCommand_of_ok hcsum, exec_csum_overlong hlen]
  exact step_of_runCommand_next hrst hheld hvalid hrun

/-- Settles O4, outcome by outcome; there is no fault to end in. -/
theorem stepRunsTheDecodedOperation : Obligations.StepRunsTheDecodedOperation := by
  refine ⟨fun s i hrst hheld hvalid hdecode => ?_, fun _ _ _ => advancePins_of_script_cons,
    fun _ => advancePins_of_script_nil⟩
  have hrun := runCommand_of_ok hdecode
  exact ⟨fun t h => step_of_runCommand_next hrst hheld hvalid (hrun.trans h),
    fun r h => step_of_runCommand_refused hrst hheld hvalid (hrun.trans h), fun f => nomatch f⟩

/-- Settles O6: such a step is idle. -/
theorem noCommandChangesNothing : Obligations.NoCommandChangesNothing :=
  fun _ hrst hheld hvalid => step_of_no_command hrst hheld hvalid

end Sys2Proof.Machine
end

section
/-! A packet as a sender lays it out, read back (R99), and the three commands that bring it into `VS` and `LV` (R71, R110
to R112). -/

namespace Sys2Proof

/-- What a packet of a wire format brings of a record of fields. Format A: all but the sequence's high 16 bits, with the
turn Booleans of the codes (R94, R97). Format B: the sequence and the six Booleans (D7, D10). -/
def PktFields.carried (fmt : PktFmt) (f : PktFields) : PktFields :=
  match fmt with
  | .a => { f with seq := (f.seq.setWidth 16).setWidth 32, bits6 := Machine.bits6OfCodes f.left f.right }
  | .b => { left := Machine.codeOfTurn f.bits6.lt, right := Machine.codeOfTurn f.bits6.rt, flags := 0, seq := f.seq,
            clock := 0, bits6 := f.bits6 }

/-- A status code in a byte is within the field's range (R97). -/
theorem StatusCode.code_byte_le (c : StatusCode) : (c.code.setWidth 8 : Byte).toNat ≤ 3 := by
  cases c <;> decide

theorem StatusCode.code_byte_setWidth (c : StatusCode) : (c.code.setWidth 8 : Byte).setWidth 2 = c.code := by
  cases c <;> rfl

theorem nodup_bBit_of_legal {p : Params} (h : p.legal = true) : p.bBit.toList.Nodup := by
  simp only [Params.legal, Bool.and_eq_true, decide_eq_true_eq] at h
  exact h.2

end Sys2Proof

namespace Sys2Proof.Machine

/-! ### The packet codec -/

theorem pktEncode_a {p : Params} (h : p.fmt = .a) (f : PktFields) :
    pktEncode p f = bodyA p f ++ [xorsum (bodyA p f) 11] := by
  simp only [pktEncode, h]

theorem pktEncode_b {p : Params} (h : p.fmt = .b) (f : PktFields) :
    pktEncode p f = seqBytesB p f.seq ++ [maskB p.bBit f.bits6] := by
  simp only [pktEncode, h]

/-- The lowest two bytes of a field, joined. -/
theorem word32_low_bytes (v : BitVec 32) : word32 (byteOf v 0) (byteOf v 1) 0 0 = (v.setWidth 16).setWidth 32 := by
  apply BitVec.eq_of_getLsbD_eq
  intro i hi
  rw [getLsbD_word32 _ _ _ _ _ hi]
  split_ifs with h8 h16 h24
  · have h : i < 16 := by omega
    simp only [getLsbD_byteOf, BitVec.getLsbD_setWidth, h8, h, hi, Nat.mul_zero, Nat.zero_add, decide_true,
      Bool.true_and]
  · have h : 8 * 1 + (i - 8) = i := by omega
    have hlt : i - 8 < 8 := by omega
    simp only [getLsbD_byteOf, BitVec.getLsbD_setWidth, h, hlt, h16, hi, decide_true, Bool.true_and]
  · simp [h16]
  · simp [h16]

/-- The checksum of a format A packet covers the eleven bytes before it (R94). -/
theorem xorsum_append_checksum (p : Params) (f : PktFields) (x : Byte) :
    xorsum (bodyA p f ++ [x]) 11 = xorsum (bodyA p f) 11 :=
  rfl

theorem pktDecode_pktEncode_a {p : Params} (h : p.fmt = .a) (f : PktFields) :
    pktDecode p (packLanes (pktEncode p f)) 12 = .ok (f.carried .a) := by
  rw [pktDecode_a h, pktEncode_a h, pktDecodeA_ok_iff, lanes_packLanes _ rfl, xorsum_append_checksum]
  simp (disch := decide) only [fieldsA, lane_packLanes]
  refine ⟨trivial, rfl, rfl, rfl, f.left.code_byte_le, f.right.code_byte_le, ?_⟩
  simp [bodyA, PktFields.carried, word32_byteOf, ← word32_low_bytes]

/-- Bit `j` of a flag laid out at bit `k` (R93). -/
theorem getLsbD_flagAt (k j : Fin 8) (v : Bool) : (flagAt k v).getLsbD j.val = (decide (j = k) && v) := by
  by_cases hjk : j = k
  · rw [flagAt, hjk, getLsbD_placeBit_same _ _ _ k.isLt, decide_eq_true rfl, Bool.true_and]
  · rw [flagAt, getLsbD_placeBit_other _ _ _ _ (Fin.val_ne_of_ne hjk), decide_eq_false hjk, Bool.false_and]

/-- Six flags at distinct bits are read back from the bitmask (R4, R93). -/
theorem bits6OfMask_maskB {b : BBit} (h : b.toList.Nodup) (x : Bits6) : bits6OfMask b (maskB b x) = x := by
  simp only [BBit.toList, List.nodup_cons, List.mem_cons, List.not_mem_nil, not_or] at h
  obtain ⟨hlt, hrt, hap, hch, hpl, -⟩ := h
  simp only [bits6OfMask, maskB, getLsbD_or', getLsbD_flagAt]
  simp [hlt, hrt, hap, hch, hpl, eq_comm]

/-- The sequence of a format B packet is read back in either byte order (R93, log 9). -/
theorem seqB_packLanes (p : Params) (seq : BitVec 32) (m : Byte) :
    seqB p (packLanes (seqBytesB p seq ++ [m])) = seq := by
  simp (disch := decide) only [seqB, lane_packLanes]
  cases hle : p.bSeqLe <;> simp [seqBytesB, hle, word32_byteOf]

theorem lane_mask_packLanes (p : Params) (seq : BitVec 32) (m : Byte) :
    lane (packLanes (seqBytesB p seq ++ [m])) 4 = m := by
  rw [lane_packLanes _ _ (by decide)]
  cases hle : p.bSeqLe <;> simp [seqBytesB, hle]

theorem pktDecode_pktEncode_b {p : Params} (h : p.fmt = .b) (hlegal : p.legal = true) (f : PktFields) :
    pktDecode p (packLanes (pktEncode p f)) 5 = .ok (f.carried .b) := by
  rw [pktDecode_b h, pktEncode_b h, pktDecodeB_ok_iff]
  refine ⟨rfl, ?_⟩
  rw [fieldsB, seqB_packLanes, lane_mask_packLanes, bits6OfMask_maskB (nodup_bBit_of_legal hlegal)]
  rfl

/-- The packet codec round trip (R99): a packet is accepted and gives back what its format carries. -/
theorem pktDecode_pktEncode {p : Params} (hlegal : p.legal = true) (f : PktFields) :
    pktDecode p (packLanes (pktEncode p f)) p.pktLen = .ok (f.carried p.fmt) := by
  cases h : p.fmt with
  | a => simpa only [Params.pktLen, h] using pktDecode_pktEncode_a h f
  | b => simpa only [Params.pktLen, h] using pktDecode_pktEncode_b h hlegal f

/-! ### The three commands -/

/-- An operation is presented, and the block takes it, with a further setting of the pins to come: the operation is
performed and that setting follows (R60, log 3). -/
theorem step_of_operation {s t : State} {i : Instr} {q : Pins} {qs : List Pins} (hrst : s.pins.rst = false)
    (hheld : s.rstHeld = false) (hvalid : s.pins.cmdValid = true) (hdecode : decode s.pins.cmd = .ok i)
    (hexec : exec i s = .next t) (hscript : s.script = q :: qs) :
    step s = .next { t with pins := q, script := qs } := by
  obtain ⟨-, -, hkeep, -⟩ := exec_keeps_environment hexec
  rw [step_of_runCommand_next hrst hheld hvalid ((runCommand_of_ok hdecode).trans hexec),
    advancePins_of_script_cons (hkeep.trans hscript)]

/-- XMIT as two steps (R71): the packet of the fields is in the mailbox, received at the time of the two settings. -/
theorem xmit_publishes {s : State} {o : FormatE} {t : Time} {c : CfgRec} {q : Pins} {qs : List Pins}
    (hheld : s.rstHeld = false) (hpins : s.pins :: s.script = xmit s.params o t c ++ q :: qs) :
    ∃ a b, step s = .next a ∧ step a = .next b ∧ b.params = s.params ∧ b.rstHeld = false ∧ b.pins = q ∧
      b.mb = { fresh := true, len := s.params.pktLen, data := packLanes (pktEncode s.params (.ofE o)), rxTime := t,
               qValid := false, q := 0 } := by
  obtain ⟨hnow, hscript⟩ := List.cons.inj hpins
  refine ⟨_, _, step_of_operation (i := .pkenc o) ?_ hheld ?_ ?_ rfl hscript,
    step_of_operation (i := .rx (xmitPacket s.params o)) rfl hheld rfl (decodeOfEncodeGivesTheOperation _)
      (rxOverwritesTheMailbox _ _) rfl, rfl, hheld, rfl, rfl⟩
  · rw [hnow]
  · rw [hnow]
  · rw [hnow]
    exact decodeOfEncodeGivesTheOperation _

theorem decode_poll_word : decode 0x70000000000000000000000000000000 = .ok .poll := by decide

theorem step_of_poll {s : State} (hrst : s.pins.rst = false) (hheld : s.rstHeld = false)
    (hvalid : s.pins.cmdValid = true) (hdecode : decode s.pins.cmd = .ok .poll) :
    step s = .next (s.packetStep.post.respond s.packetStep.status s.packetStep.data []).advancePins :=
  step_of_runCommand_next hrst hheld hvalid ((runCommand_of_ok hdecode).trans (exec_poll s))

/-- The turn Booleans of two codes of an operand (R97, D10). -/
theorem bits6OfCodes_ofBits (left right : BitVec 2) :
    bits6OfCodes (.ofBits left) (.ofBits right) =
      ⟨decide (left = 1), decide (right = 1), false, false, false, false⟩ := by
  simp only [bits6OfCodes, StatusCode.ofBits_eq_on, Bits6.zero]

/-- Settles O59: XMIT leaves the packet in the mailbox, and POLL takes from it what the packet carries. -/
theorem relayDeliversTheSenderState : Obligations.RelayDeliversTheSenderState := by
  intro s o t t' c c' hheld hlegal hpins
  obtain ⟨a, b, hpkenc, hrx, hparams, hheldb, hpinsb, hmb⟩ := xmit_publishes hheld hpins
  have hpoll := step_of_poll (s := b) (by rw [hpinsb]) hheldb (by rw [hpinsb]) (by rw [hpinsb]; exact decode_poll_word)
  have haccept := packetStep_accepted b ((PktFields.ofE o).carried s.params.fmt) (by rw [hmb])
    (by rw [hmb, hparams]; exact pktDecode_pktEncode hlegal _)
  refine ⟨_, (run_succ_eq_next_iff _ _ _ _).mpr ⟨a, hpkenc, (run_succ_eq_next_iff _ _ _ _).mpr ⟨b, hrx,
    (run_succ_eq_next_iff _ _ _ _).mpr ⟨_, hpoll, rfl⟩⟩⟩, ?_⟩
  simp only [haccept, State.advancePins_rxstat, State.advancePins_mb, State.advancePins_vs, State.advancePins_lv,
    State.respond_rxstat, State.respond_mb, State.respond_vs, State.respond_lv, hmb, true_and]
  constructor <;> intro hfmt
  case left => simp [hfmt, PktFields.carried, PktFields.ofE, bits6OfCodes_ofBits]
  case right => simp [hfmt, PktFields.carried, PktFields.ofE]

end Sys2Proof.Machine
end

section
/-! The extractor and the signal decoder: a layout as a number, the big-endian reassembly (R80), BFX (R81 to R83) and
SDEC (R85, R86). -/

namespace Sys2Proof

theorem toNat_place {w : Nat} (n lo : Nat) (v : BitVec w) : (place n lo v).toNat = 2 ^ lo * v.toNat % 2 ^ n := by
  simp [place, Nat.shiftLeft_eq, Nat.mul_comm]

/-- A field placed above a value does not overlap it, so it adds to it. -/
theorem toNat_or_place {n w lo : Nat} {x : BitVec n} (h : x.toNat < 2 ^ lo) (v : BitVec w) :
    (x ||| place n lo v).toNat = (x.toNat + 2 ^ lo * v.toNat) % 2 ^ n := by
  have hdisjoint : x &&& place n lo v = 0#n := by
    apply BitVec.eq_of_getLsbD_eq
    intro i _
    by_cases hi : i < lo
    · simp [getLsbD_place_disjoint n lo i v (.inl hi)]
    · have hx : x.getLsbD i = false :=
        Nat.testBit_lt_two_pow (h.trans_le (Nat.pow_le_pow_right (by decide) (Nat.le_of_not_lt hi)))
      simp [hx]
  rw [← BitVec.add_eq_or_of_and_eq_zero _ _ hdisjoint, BitVec.toNat_add, toNat_place, Nat.add_mod_mod]

/-! ### The reassembly -/

theorem be64_append_singleton (l : List Byte) (x : Byte) : be64 (l ++ [x]) = be64 l <<< 8 ||| place 64 0 x := by
  simp [be64]

/-- The reassembly is the packing of the bytes into lanes (R63) in reverse order. -/
theorem be64_eq_packLanes_reverse (l : List Byte) : be64 l = (packLanes l.reverse).setWidth 64 := by
  induction l using List.reverseRecOn with
  | nil => rfl
  | append_singleton l x ih =>
    rw [be64_append_singleton, ih, List.reverse_concat, packLanes]
    apply BitVec.eq_of_getLsbD_eq
    intro i hi
    simp [place, hi, Bool.or_comm]

/-- The reassembly as a number is the fold of the bytes in base 256. -/
theorem toNat_be64 (l : List Byte) : (be64 l).toNat = l.foldl (fun n x => 2 ^ 8 * n + x.toNat) 0 % 2 ^ 64 := by
  induction l using List.reverseRecOn with
  | nil => rfl
  | append_singleton l x ih =>
    have hx : (place 64 0 x).toNat = x.toNat := by
      rw [toNat_place]
      omega
    have hshift : be64 l <<< 8 = place 64 8 (be64 l) := by simp [place]
    rw [be64_append_singleton, BitVec.or_comm, hshift, toNat_or_place (by omega), hx, ih, List.foldl_append]
    simp only [List.foldl_cons, List.foldl_nil]
    omega

section
variable {l : List Byte} (hl : l.length = 8)
include hl

/-- Byte `k` of eight lies in the reassembly from bit `8 * (7 - k)` on (R80). -/
theorem getLsbD_be64 {k j : Nat} (hk : k < 8) (hj : j < 8) :
    (be64 l).getLsbD (8 * (7 - k) + j) = (l.getD k 0).getLsbD j := by
  have hbit : 8 * (7 - k) + j < 64 := by omega
  have hbyte : l.reverse.getD (7 - k) 0 = l.getD k 0 := by
    have hindex : l.length - 1 - (7 - k) = k := by omega
    rw [List.getD_reverse _ (by omega), hindex]
  rw [be64_eq_packLanes_reverse, BitVec.getLsbD_setWidth, getLsbD_packLanes _ _ _ hj (by omega), hbyte]
  simp [hbit]

theorem extract_be64_byte {k : Nat} (hk : k < 8) :
    Machine.extract (be64 l) (8 * k) 8 = (l.getD k 0).setWidth 64 := by
  apply BitVec.eq_of_getLsbD_eq
  intro j hj
  rw [Machine.getLsbD_extract _ _ _ _ (by decide), BitVec.getLsbD_setWidth]
  by_cases hj8 : j < 8
  · have hplace : 64 - 8 * k - 8 + j = 8 * (7 - k) + j := by omega
    rw [hplace, getLsbD_be64 hl hk hj8]
    simp [hj, hj8]
  · have habove : (l.getD k 0).getLsbD j = false := BitVec.getLsbD_of_ge _ _ (by omega)
    rw [habove, Bool.and_false, decide_eq_false hj8, Bool.false_and]

end

end Sys2Proof

namespace Sys2Proof.Machine

/-! ### BFX -/

theorem exec_bfx_of_extractOk {o : FormatX} (h : extractOk o.start.toNat o.width.toNat = true) (s : State) :
    exec (.bfx o) s = .next (s.respond .ok ((extract o.payload o.start.toNat o.width.toNat).setWidth 128) []) :=
  if_pos h

/-- Settles O14: the answer is the extracted field, whose bits and value are known. -/
theorem bfxReturnsTheBitField : Obligations.BfxReturnsTheBitField := by
  intro s o hpos hwidth hend
  refine ⟨_, exec_bfx_of_extractOk ((extractOk_iff _ _).mpr ⟨hpos, hwidth, hend⟩) s, fun j => ?_, ?_⟩
  · have hfits : j < o.width.toNat → j < 128 := by omega
    simp only [BitVec.getLsbD_setWidth, getLsbD_extract _ _ _ _ hwidth, ← Bool.and_assoc, ← Bool.decide_and,
      and_iff_right_of_imp hfits]
  · rw [BitVec.toNat_setWidth_of_le (by decide), extract_toNat _ _ _ hwidth]

/-- Settles O15: each of the three ways out of the precondition fails its check. -/
theorem bfxOutsideThePreconditionIsRefused : Obligations.BfxOutsideThePreconditionIsRefused := by
  intro s o hout
  have hbad : extractOk o.start.toNat o.width.toNat = false := by
    rw [← Bool.not_eq_true, extractOk_iff]
    omega
  exact (exec_refused_iff _ s _).mpr (.inl ⟨rfl, o, rfl, hbad⟩)

/-- BFX at a byte of the reassembly returns the byte (R80, R83). -/
theorem exec_bfx_byte {l : List Byte} (hl : l.length = 8) {k : Nat} (hk : k < 8) (s : State) :
    exec (.bfx ⟨be64 l, BitVec.ofNat 6 (8 * k), 8⟩) s = .next (s.respond .ok ((l.getD k 0).setWidth 128) []) := by
  have hstart : (BitVec.ofNat 6 (8 * k)).toNat = 8 * k := by
    rw [BitVec.toNat_ofNat]
    omega
  have hwidth : (8 : BitVec 7).toNat = 8 := rfl
  have hok : extractOk (BitVec.ofNat 6 (8 * k)).toNat (8 : BitVec 7).toNat = true := by
    rw [extractOk_iff, hstart, hwidth]
    omega
  rw [exec_bfx_of_extractOk hok, hstart, hwidth, extract_be64_byte hl hk, BitVec.setWidth_setWidth (by decide)]

/-- Settles O16: the sum is the fold of the bytes, and MSB-0 bit `k` is bit `7 - k % 8` of byte `k / 8`. -/
theorem payloadReassemblyIsBigEndian : Obligations.PayloadReassemblyIsBigEndian := by
  intro p0 p1 p2 p3 p4 p5 p6 p7
  refine ⟨?_, fun k hk => ?_, fun s k hk => exec_bfx_byte rfl hk s⟩
  · rw [toNat_be64]
    simp only [List.foldl_cons, List.foldl_nil]
    omega
  · have hplace : 63 - k = 8 * (7 - k / 8) + (7 - k % 8) := by omega
    rw [hplace, getLsbD_be64 rfl (by omega) (by omega)]

/-! ### SDEC -/

theorem signalDecode_of_filtered {p : Params} {o : FormatF} (h : o.id ≠ p.frameId ∨ o.dlc ≠ 8) :
    signalDecode p o = none :=
  if_pos h

theorem signalDecode_of_match {p : Params} {o : FormatF} (hid : o.id = p.frameId) (hdlc : o.dlc = 8) :
    signalDecode p o = some ⟨statusField o.payload p.leftOff, statusField o.payload p.rightOff⟩ := by
  simp [signalDecode, hid, hdlc]

/-- The code of a status field is the two bits at its offset (R85). -/
theorem toNat_code_statusField (payload : BitVec 64) (off : Nat) :
    (statusField payload off).code.toNat = payload.toNat / 2 ^ (62 - off) % 4 := by
  have hshift : 64 - off - 2 = 62 - off := by omega
  rw [statusField, StatusCode.code_ofBits, BitVec.toNat_setWidth, extract_toNat _ _ _ (by decide), hshift]
  exact Nat.mod_mod _ _

theorem toNat_sdecData (r : SignalPair) :
    (sdecData r).toNat = 1 + 2 * r.left.code.toNat + 8 * r.right.code.toNat := by
  have hleft := r.left.code.isLt
  have hright := r.right.code.isLt
  have hhit : (placeBit 128 0 true).toNat = 1 := by decide
  have hlow : (placeBit 128 0 true ||| place 128 1 r.left.code).toNat = 1 + 2 * r.left.code.toNat := by
    rw [toNat_or_place (by omega), hhit]
    omega
  rw [sdecData, toNat_or_place (by omega), hlow]
  omega

theorem exec_sdec_of_none {o : FormatF} {s : State} (h : signalDecode s.params o = none) :
    exec (.sdec o) s = .next (s.respond .filtered 0 []) := by
  simp only [exec, execSdec, h, State.raise]

theorem exec_sdec_of_some {o : FormatF} {s : State} {r : SignalPair} (h : signalDecode s.params o = some r) :
    exec (.sdec o) s = .next (s.respond .ok (sdecData r) []) := by
  simp only [exec, execSdec, h]

/-- Settles O17: a filtered frame has no result, and on a match the result word is the hit bit and the two codes. -/
theorem sdecDecodesOrFilters : Obligations.SdecDecodesOrFilters := by
  intro s o
  refine ⟨fun hfilter => exec_sdec_of_none (signalDecode_of_filtered hfilter), fun hid hdlc => ?_⟩
  refine ⟨_, exec_sdec_of_some (signalDecode_of_match hid hdlc), ?_⟩
  rw [toNat_sdecData, toNat_code_statusField, toNat_code_statusField]

end Sys2Proof.Machine
end

section
/-! An encoded packet decodes to its own fields (R99). -/

namespace Sys2Proof.Machine

/-- Settles O22: a packet gives back what its format carries, and format A carries a 16-bit sequence whole. -/
theorem packetCodecRoundTrips : Obligations.PacketCodecRoundTrips := by
  intro p f
  refine ⟨fun hfmt hseq => ⟨_, pktDecode_pktEncode_a hfmt f, rfl, rfl, rfl, ?_, rfl⟩,
    fun hfmt hlegal => ⟨_, pktDecode_pktEncode_b hfmt hlegal f, rfl, rfl⟩⟩
  have hround : (f.seq.setWidth 16).setWidth 32 = f.seq := by
    apply BitVec.eq_of_toNat_eq
    have h32 := f.seq.isLt
    rw [BitVec.toNat_setWidth, BitVec.toNat_setWidth, Nat.mod_eq_of_lt hseq, Nat.mod_eq_of_lt h32]
  exact hround

end Sys2Proof.Machine
end

section
/-! The XOR checksum (R90) and CSUM (R91). -/

namespace Sys2Proof.Machine

/-! ### The fold -/

theorem xorsum_length (b : List Byte) : xorsum b b.length = xorAll b := by
  rw [xorsum, List.take_length]

theorem getLsbD_xorsum (b : List Byte) (n j : Nat) :
    (xorsum b n).getLsbD j = decide (((b.take n).filter fun x => x.getLsbD j).length % 2 = 1) :=
  getLsbD_xorAll _ j

/-- The fold does not depend on the order of the bytes: a parity is a count. -/
theorem xorAll_perm {b b' : List Byte} (h : b.Perm b') : xorAll b = xorAll b' := by
  apply BitVec.eq_of_getLsbD_eq
  intro j _
  rw [getLsbD_xorAll, getLsbD_xorAll, (h.filter _).length_eq]

@[simp] theorem xorAll_singleton (x : Byte) : xorAll [x] = x := by
  simp [xorAll]

/-- A change of one byte of the string is the same change of the fold. -/
theorem xorAll_set_xor (b : List Byte) {k : Nat} (hk : k < b.length) (e : Byte) :
    xorAll (b.set k (b.getD k 0 ^^^ e)) = xorAll b ^^^ e := by
  induction b generalizing k with
  | nil => exact absurd hk (Nat.not_lt_zero k)
  | cons x xs ih =>
    simp only [xorAll, List.foldr_cons] at ih ⊢
    cases k with
    | zero =>
      simp only [List.set_cons_zero, List.getD_cons_zero, List.foldr_cons]
      rw [BitVec.xor_assoc, BitVec.xor_comm e, ← BitVec.xor_assoc]
    | succ k =>
      simp only [List.set_cons_succ, List.getD_cons_succ, List.foldr_cons]
      rw [ih (Nat.lt_of_succ_lt_succ hk), BitVec.xor_assoc]

/-- Settles O19, from the laws of the fold over a whole string. -/
theorem xorsumIsABitwiseParity : Obligations.XorsumIsABitwiseParity := by
  refine ⟨fun _ => rfl, getLsbD_xorsum, fun b b' h => ?_, fun b => ?_, fun b k j hk _ => ?_⟩
  · rw [xorsum_length, xorsum_length, xorAll_perm h]
  · have hlength : b.length + 1 = (b ++ [xorAll b]).length := by simp
    rw [xorsum_length, hlength, xorsum_length, xorAll_append, xorAll_singleton]
    exact BitVec.xor_self
  · have hlength : b.length = (b.set k (b.getD k 0 ^^^ 1#8 <<< j)).length := by simp
    rw [xorsum_length b, hlength, xorsum_length, xorAll_set_xor b hk]

/-! ### The fold over lanes -/

theorem take_lanes (b : BitVec 96) {n : Nat} (hn : n ≤ 12) : (lanes b).take n = (List.range n).map (lane b) := by
  rw [lanes, ← List.map_take, List.take_range, Nat.min_eq_left hn]

theorem xorsum_lanes_succ (b : BitVec 96) {n : Nat} (hn : n < 12) :
    xorsum (lanes b) (n + 1) = xorsum (lanes b) n ^^^ lane b n := by
  rw [xorsum, xorsum, take_lanes b hn, take_lanes b hn.le, List.range_succ, List.map_append, xorAll_append,
    List.map_singleton, xorAll_singleton]

/-- The last byte is the checksum of the eleven before it just where all twelve fold to 0 (R94, R97). -/
theorem xorsum_lanes_eq_zero_iff (b : BitVec 96) : xorsum (lanes b) 12 = 0 ↔ xorsum (lanes b) 11 = lane b 11 := by
  rw [xorsum_lanes_succ b (by decide)]
  exact BitVec.xor_eq_zero_iff

/-- A bit of the checksum of the first `n` lanes is the parity of the bits at its place in each of them. -/
theorem getLsbD_xorsum_lanes (b : BitVec 96) {n j : Nat} (hn : n ≤ 12) (hj : j < 8) :
    (xorsum (lanes b) n).getLsbD j =
      decide (((List.range n).filter fun k => b.getLsbD (8 * k + j)).length % 2 = 1) := by
  have hbit : ((fun x : Byte => x.getLsbD j) ∘ lane b) = fun k => b.getLsbD (8 * k + j) := by
    funext k
    rw [Function.comp_apply, getLsbD_lane, decide_eq_true hj, Bool.true_and]
  rw [getLsbD_xorsum, take_lanes b hn, List.filter_map, List.length_map, hbit]

/-- Settles O18: the answer is the checksum in the low byte, or BAD_OP. -/
theorem csumFoldsTheFirstLanes : Obligations.CsumFoldsTheFirstLanes := by
  refine fun s o => ⟨fun hlen => ?_, fun hlen => exec_csum_overlong hlen s⟩
  refine ⟨(xorsum (lanes o.bytes) o.len.toNat).setWidth 128, if_neg (Nat.not_lt.mpr hlen), fun j => ?_⟩
  by_cases hj : j < 8
  · have hj128 : j < 128 := by omega
    rw [BitVec.getLsbD_setWidth, getLsbD_xorsum_lanes _ hlen hj]
    simp [hj, hj128]
  · rw [BitVec.getLsbD_setWidth, BitVec.getLsbD_of_ge _ j (by omega)]
    simp [hj]

end Sys2Proof.Machine
end

section
/-! The bytes of a packet in their lanes, and PKENC under both formats (R92 to R95). -/

namespace Sys2Proof

/-- Packed bytes read as 0 beyond the last of them (R95). -/
theorem getLsbD_packLanes_beyond {l : List Byte} {i : Nat} (h : 8 * l.length ≤ i) :
    (packLanes l).getLsbD i = false := by
  by_cases hi : i < 96
  · have hbyte : l.length ≤ i / 8 := by omega
    rw [← Nat.div_add_mod i 8, getLsbD_packLanes l _ _ (by omega) (by omega), List.getD_eq_default _ _ hbyte]
    exact BitVec.getLsbD_zero
  · exact BitVec.getLsbD_of_ge _ _ (by omega)

/-- A part of a field of a word is a field of the word. -/
theorem extract_extract {w : Nat} (x : BitVec w) (lo : Nat) {n k m : Nat} (h : k + m ≤ n) :
    (x.extractLsb' lo n).extractLsb' k m = x.extractLsb' (lo + k) m := by
  apply BitVec.eq_of_getLsbD_eq
  intro j hj
  have hlt : k + j < n := by omega
  simp [hj, hlt, Nat.add_assoc]

end Sys2Proof

namespace Sys2Proof.Machine

/-! ### Fields of several lanes -/

theorem byteOf_extract (b : BitVec 96) (k : Nat) {m : Nat} (hm : m < 4) :
    byteOf (b.extractLsb' (8 * k) 32) m = lane b (k + m) := by
  rw [byteOf, extract_extract _ _ (by omega), lane, Nat.mul_add]

/-- Four adjoining lanes are a 32-bit field, the lowest byte first (R92). -/
theorem word32_lanes (b : BitVec 96) (k : Nat) :
    word32 (lane b k) (lane b (k + 1)) (lane b (k + 2)) (lane b (k + 3)) = b.extractLsb' (8 * k) 32 := by
  have hword := word32_byteOf (b.extractLsb' (8 * k) 32)
  simpa (disch := decide) only [byteOf_extract, Nat.add_zero] using hword

/-- Two adjoining lanes are a 16-bit field, the lowest byte first (R92). -/
theorem word32_two_lanes (b : BitVec 96) (k : Nat) :
    word32 (lane b k) (lane b (k + 1)) 0 0 = (b.extractLsb' (8 * k) 16).setWidth 32 := by
  have hword := word32_low_bytes (b.extractLsb' (8 * k) 32)
  simpa (disch := decide) only [byteOf_extract, Nat.add_zero, BitVec.setWidth_extractLsb'_of_le] using hword

/-- The XOR of the first `n` bytes of a packet is its checksum over `n` lanes (R90). -/
theorem foldl_xor_lanes (b : BitVec 96) {n : Nat} (hn : n ≤ 12) :
    ((List.range n).map fun k => b.extractLsb' (8 * k) 8).foldl (fun acc x : Byte => acc ^^^ x) 0 =
      xorsum (lanes b) n := by
  rw [foldl_xor_eq_xorAll, xorsum, take_lanes b hn]
  exact BitVec.zero_xor

/-! ### The result word of PKENC -/

section
variable (p : Params) (f : PktFields)

theorem extract_pkencData {lo k : Nat} (h : lo + k ≤ 96) :
    (pkencData p f).extractLsb' lo k = (packLanes (pktEncode p f)).extractLsb' lo k := by
  rw [pkencData, extract_or, extract_place_within _ _ _ _ _ (by omega) (by omega) (by decide),
    extract_place_disjoint _ _ _ _ _ (by omega)]
  exact BitVec.or_zero

theorem extract_pkencData_lane {k : Nat} (hk : k < 12) :
    (pkencData p f).extractLsb' (8 * k) 8 = (pktEncode p f).getD k 0 := by
  rw [extract_pkencData p f (by omega), ← lane_packLanes _ _ hk]
  rfl

theorem getLsbD_pkencData {i : Nat} (h : i < 96) :
    (pkencData p f).getLsbD i = (packLanes (pktEncode p f)).getLsbD i := by
  rw [pkencData, getLsbD_or', getLsbD_place_within _ _ _ _ (by omega) (by omega) (by decide),
    getLsbD_place_disjoint _ _ _ _ (by omega)]
  exact Bool.or_false _

theorem extract_pkencData_len : (pkencData p f).extractLsb' 96 4 = p.pktLen := by
  rw [pkencData, extract_or, extract_place_disjoint _ _ _ _ _ (by decide), extract_place_same _ _ _ (by decide)]
  exact BitVec.zero_or

theorem extract_pkencData_above : (pkencData p f).extractLsb' 100 28 = 0 := by
  rw [pkencData, extract_or, extract_place_disjoint _ _ _ _ _ (by decide),
    extract_place_disjoint _ _ _ _ _ (by decide)]
  exact BitVec.zero_or

end

/-! ### Format A -/

theorem extract_seq_pktEncode_a {p : Params} (h : p.fmt = .a) (f : PktFields) :
    (packLanes (pktEncode p f)).extractLsb' 40 16 = f.seq.setWidth 16 := by
  have hlanes : ((packLanes (pktEncode p f)).extractLsb' (8 * 5) 16).setWidth 32 = (f.seq.setWidth 16).setWidth 32 := by
    rw [← word32_two_lanes, ← word32_low_bytes, lane_packLanes _ _ (by decide), lane_packLanes _ _ (by decide),
      pktEncode_a h]
    rfl
  have hlow := congrArg (BitVec.setWidth 16) hlanes
  simpa only [BitVec.setWidth_setWidth_of_le _ (show 16 ≤ 32 by decide), BitVec.setWidth_eq] using hlow

theorem extract_clock_pktEncode_a {p : Params} (h : p.fmt = .a) (f : PktFields) :
    (packLanes (pktEncode p f)).extractLsb' 56 32 = f.clock := by
  have hlanes := word32_lanes (packLanes (pktEncode p f)) 7
  simp (disch := decide) only [lane_packLanes, pktEncode_a h] at hlanes
  rw [pktEncode_a h, ← word32_byteOf f.clock]
  exact hlanes.symm

/-- The last byte is the XOR of the eleven before it (R94). -/
theorem foldl_xor_pktEncode_a {p : Params} (h : p.fmt = .a) (f : PktFields) :
    ((List.range 11).map fun k => (packLanes (pktEncode p f)).extractLsb' (8 * k) 8).foldl
      (fun acc x : Byte => acc ^^^ x) 0 = xorsum (bodyA p f) 11 := by
  rw [foldl_xor_lanes _ (by decide), pktEncode_a h, lanes_packLanes _ rfl, xorsum_append_checksum]

/-- Settles O20, byte by byte of the packet in the low 96 bits. -/
theorem pkencLaysOutFormatA : Obligations.PkencLaysOutFormatA := by
  intro s o hfmt
  let f := PktFields.ofE o
  have hbyte : ∀ k < 12, (pkencData s.params f).extractLsb' (8 * k) 8 =
      (bodyA s.params f ++ [xorsum (bodyA s.params f) 11]).getD k 0 := by
    intro k hk
    rw [extract_pkencData_lane _ _ hk, pktEncode_a hfmt]
  have hleft : f.left.code = o.left := StatusCode.code_ofBits _
  have hright : f.right.code = o.right := StatusCode.code_ofBits _
  refine ⟨pkencData s.params f, rfl, hbyte 0 (by decide), hbyte 1 (by decide), ?left, ?right, hbyte 4 (by decide),
    (extract_pkencData _ _ (by decide)).trans (extract_seq_pktEncode_a hfmt f),
    (extract_pkencData _ _ (by decide)).trans (extract_clock_pktEncode_a hfmt f), ?checksum, ?length,
    extract_pkencData_above _ _⟩
  case left => exact hleft ▸ hbyte 2 (by decide)
  case right => exact hright ▸ hbyte 3 (by decide)
  case checksum =>
    have hlanes : ∀ k ∈ List.range 11, (pkencData s.params f).extractLsb' (8 * k) 8 =
        (packLanes (pktEncode s.params f)).extractLsb' (8 * k) 8 := by
      intro k hk
      have hlt := List.mem_range.mp hk
      exact extract_pkencData _ _ (by omega)
    rw [List.map_congr_left hlanes, foldl_xor_pktEncode_a hfmt]
    exact hbyte 11 (by decide)
  case length => rw [extract_pkencData_len, Params.pktLen, hfmt]

/-! ### Format B -/

theorem length_pktEncode_b {p : Params} (h : p.fmt = .b) (f : PktFields) : (pktEncode p f).length = 5 := by
  rw [pktEncode_b h]
  cases hle : p.bSeqLe <;> simp [seqBytesB, hle]

theorem extract_seq_pktEncode_b {p : Params} (h : p.fmt = .b) (hle : p.bSeqLe = true) (f : PktFields) :
    (packLanes (pktEncode p f)).extractLsb' 0 32 = f.seq := by
  have hseq := seqB_packLanes p f.seq (maskB p.bBit f.bits6)
  rw [seqB, if_pos hle] at hseq
  rw [pktEncode_b h]
  exact (word32_lanes _ 0).symm.trans hseq

theorem extract_seq_byte_pktEncode_b {p : Params} (h : p.fmt = .b) (hle : p.bSeqLe = false) (f : PktFields) {k : Nat}
    (hk : k < 4) : (packLanes (pktEncode p f)).extractLsb' (8 * k) 8 = f.seq.extractLsb' (24 - 8 * k) 8 := by
  have hlane := lane_packLanes (pktEncode p f) k (by omega)
  simp only [pktEncode_b h, seqBytesB, hle] at hlane ⊢
  refine hlane.trans ?_
  interval_cases k <;> rfl

/-- Bit `j` of the fifth byte is bit `j` of the bitmask. -/
theorem getLsbD_mask_pktEncode_b {p : Params} (h : p.fmt = .b) (f : PktFields) (j : Fin 8) :
    (packLanes (pktEncode p f)).getLsbD (32 + j.val) = (maskB p.bBit f.bits6).getLsbD j.val := by
  have hlane := getLsbD_lane (packLanes (pktEncode p f)) 4 j.val
  rw [pktEncode_b h, lane_mask_packLanes, decide_eq_true j.isLt, Bool.true_and] at hlane
  rw [pktEncode_b h, hlane]

theorem getLsbD_maskB_of_notMem {b : BBit} {j : Fin 8} (h : j ∉ b.toList) (x : Bits6) :
    (maskB b x).getLsbD j.val = false := by
  simp only [BBit.toList, List.mem_cons, List.not_mem_nil, not_or, or_false] at h
  simp only [maskB, getLsbD_or', getLsbD_flagAt]
  simp [h]

/-- Settles O21: the four sequence bytes, then the bitmask, whose flags are read back at their bits. -/
theorem pkencLaysOutFormatB : Obligations.PkencLaysOutFormatB := by
  intro s o hfmt hlegal
  let f := PktFields.ofE o
  have hmask : ∀ j : Fin 8, (pkencData s.params f).getLsbD (32 + j.val) = (maskB s.params.bBit f.bits6).getLsbD j.val :=
    fun j => (getLsbD_pkencData _ _ (by omega)).trans (getLsbD_mask_pktEncode_b hfmt f j)
  have hflags := bits6OfMask_maskB (nodup_bBit_of_legal hlegal) f.bits6
  refine ⟨pkencData s.params f, rfl,
    fun hle => (extract_pkencData _ _ (by decide)).trans (extract_seq_pktEncode_b hfmt hle f),
    fun hle k hk => (extract_pkencData _ _ (by omega)).trans (extract_seq_byte_pktEncode_b hfmt hle f hk),
    (hmask _).trans (congrArg Bits6.lt hflags), (hmask _).trans (congrArg Bits6.rt hflags),
    (hmask _).trans (congrArg Bits6.ap hflags), (hmask _).trans (congrArg Bits6.ch hflags),
    (hmask _).trans (congrArg Bits6.pl hflags), (hmask _).trans (congrArg Bits6.tr hflags),
    fun j hj => (hmask j).trans (getLsbD_maskB_of_notMem hj _), ?beyond, ?length, extract_pkencData_above _ _⟩
  case beyond =>
    apply BitVec.eq_of_getLsbD_eq
    intro j hj
    have hlen := length_pktEncode_b hfmt f
    rw [extract_pkencData _ _ (by decide), BitVec.getLsbD_extractLsb', getLsbD_packLanes_beyond (by omega)]
    simp
  case length => rw [extract_pkencData_len, Params.pktLen, hfmt]

end Sys2Proof.Machine
end

section
/-! PKDEC under both formats (R96 to R98): the decoder's answer in each case, and the fields of an accepted packet in the
result word. -/

namespace Sys2Proof.Machine

/-! ### The answer of PKDEC -/

/-- The status PKDEC answers with (R98). -/
def pkdecStatus : Except PktReject PktFields → Status
  | .error r => r.status
  | .ok _ => .ok

/-- The result word PKDEC answers with (R98, R214). -/
def pkdecResult : Except PktReject PktFields → ResData
  | .error _ => 0
  | .ok f => pkdecData f

/-- PKDEC answers what the decoder says and writes nothing (R98). -/
theorem exec_pkdec (o : FormatP) (s : State) :
    exec (.pkdec o) s =
      .next (s.respond (pkdecStatus (pktDecode s.params o.bytes o.len))
        (pkdecResult (pktDecode s.params o.bytes o.len)) []) := by
  simp only [exec, execPkdec]
  cases pktDecode s.params o.bytes o.len <;> rfl

/-! ### The first failure of format A -/

section
variable {p : Params} {b : BitVec 96} {len : BitVec 4}

theorem pktDecodeA_badLen (hlen : len ≠ 12) : pktDecodeA p b len = .error .badLen :=
  if_pos hlen

theorem pktDecodeA_badMagic (hmagic : lane b 0 ≠ p.magic) : pktDecodeA p b 12 = .error .badMagic := by
  simp [pktDecodeA, hmagic]

variable (hmagic : lane b 0 = p.magic)
include hmagic

theorem pktDecodeA_badVersion (hversion : lane b 1 ≠ p.version) : pktDecodeA p b 12 = .error .badVersion := by
  simp [pktDecodeA, hmagic, hversion]

variable (hversion : lane b 1 = p.version)
include hversion

theorem pktDecodeA_badChecksum (hsum : xorsum (lanes b) 12 ≠ 0) : pktDecodeA p b 12 = .error .badChecksum := by
  have hlast := mt (xorsum_lanes_eq_zero_iff b).mpr hsum
  simp [pktDecodeA, hmagic, hversion, hlast]

variable (hsum : xorsum (lanes b) 12 = 0)
include hsum

theorem pktDecodeA_badField (hrange : 3 < (lane b 2).toNat ∨ 3 < (lane b 3).toNat) :
    pktDecodeA p b 12 = .error .badField := by
  have hlast := (xorsum_lanes_eq_zero_iff b).mp hsum
  simp [pktDecodeA, hmagic, hversion, hlast, hrange]

theorem pktDecodeA_ok (hleft : (lane b 2).toNat ≤ 3) (hright : (lane b 3).toNat ≤ 3) :
    pktDecodeA p b 12 = .ok (fieldsA b) :=
  (pktDecodeA_ok_iff _ _ _ _).mpr
    ⟨rfl, hmagic, hversion, (xorsum_lanes_eq_zero_iff b).mp hsum, hleft, hright, rfl⟩

end

/-- A status byte is within its field's range when its six high bits are 0 (R97). -/
theorem byte_le_three_iff (x : Byte) : x.toNat ≤ 3 ↔ x.extractLsb' 2 6 = 0 := by
  revert x
  decide

/-- A status byte of a packet is within its range when bits 7:2 of it are 0 (R97). -/
theorem lane_le_three_iff (b : BitVec 96) (k : Nat) : (lane b k).toNat ≤ 3 ↔ b.extractLsb' (8 * k + 2) 6 = 0 := by
  rw [byte_le_three_iff, lane, extract_extract _ _ (by decide)]

/-- The fields of an accepted format A packet, each a field of its 96 bits (R92, R97, D10). -/
theorem fieldsA_eq (b : BitVec 96) :
    fieldsA b =
      { left := .ofBits (b.extractLsb' 16 2), right := .ofBits (b.extractLsb' 24 2), flags := b.extractLsb' 32 8,
        seq := (b.extractLsb' 40 16).setWidth 32, clock := b.extractLsb' 56 32,
        bits6 := ⟨decide (b.extractLsb' 16 2 = 1), decide (b.extractLsb' 24 2 = 1), false, false, false, false⟩ } := by
  have hcode : ∀ k, (lane b k).setWidth 2 = b.extractLsb' (8 * k) 2 :=
    fun _ => BitVec.setWidth_extractLsb'_of_le (by decide)
  rw [fieldsA, word32_two_lanes, word32_lanes, hcode, hcode, bits6OfCodes_ofBits, lane]

/-! ### The fields in the result word -/

section
variable (f : PktFields)

/-- The fields stand at their places of format E (R64, R98). -/
theorem extract_pkdecData :
    (pkdecData f).extractLsb' 0 2 = f.left.code ∧ (pkdecData f).extractLsb' 2 2 = f.right.code ∧
    (pkdecData f).extractLsb' 4 8 = f.flags ∧ (pkdecData f).extractLsb' 12 32 = f.seq ∧
    (pkdecData f).extractLsb' 44 32 = f.clock ∧ (pkdecData f).extractLsb' 76 6 = f.bits6.toBits := by
  simp (disch := decide) [pkdecData, layoutE, PktFields.toE, extract_place_within, extract_or, extract_place_disjoint]

theorem getLsbD_toBits (x : Bits6) :
    x.toBits.getLsbD 0 = x.lt ∧ x.toBits.getLsbD 1 = x.rt ∧ x.toBits.getLsbD 2 = x.ap ∧ x.toBits.getLsbD 3 = x.ch ∧
    x.toBits.getLsbD 4 = x.pl ∧ x.toBits.getLsbD 5 = x.tr := by
  have h := Bits6.ofBits_toBits x
  exact ⟨congrArg Bits6.lt h, congrArg Bits6.rt h, congrArg Bits6.ap h, congrArg Bits6.ch h, congrArg Bits6.pl h,
    congrArg Bits6.tr h⟩

/-- From bit 76 up there are the six Booleans and nothing else (R64, R98). -/
theorem getLsbD_pkdecData_bits6 (j : Nat) : (pkdecData f).getLsbD (76 + j) = f.bits6.toBits.getLsbD j := by
  by_cases hj : j < 6
  · obtain ⟨-, -, -, -, -, hbits⟩ := extract_pkdecData f
    rw [← hbits, BitVec.getLsbD_extractLsb', decide_eq_true hj, Bool.true_and]
  · rw [BitVec.getLsbD_of_ge _ j (by omega), pkdecData, getLsbD_place_disjoint _ _ _ _ (by omega)]

theorem extract_pkdecData_bits6 (lo k : Nat) :
    (pkdecData f).extractLsb' (76 + lo) k = f.bits6.toBits.extractLsb' lo k := by
  apply BitVec.eq_of_getLsbD_eq
  intro j _
  rw [BitVec.getLsbD_extractLsb', BitVec.getLsbD_extractLsb', Nat.add_assoc, getLsbD_pkdecData_bits6]

/-- Nothing stands above the six Booleans (R66). -/
theorem extract_pkdecData_above (k : Nat) : (pkdecData f).extractLsb' (76 + 6) k = 0 := by
  rw [extract_pkdecData_bits6]
  apply BitVec.eq_of_getLsbD_eq
  intro j _
  rw [BitVec.getLsbD_extractLsb', BitVec.getLsbD_of_ge _ (6 + j) (by omega)]
  simp

end

/-! ### Format A -/

theorem pkdec_of_error {x : Except PktReject PktFields} {r : PktReject} (h : x = .error r) :
    pkdecStatus x = r.status ∧ pkdecResult x = 0 := by
  subst h
  exact ⟨rfl, rfl⟩

/-- Two turn Booleans are all that format A fills (D10). -/
theorem extract_toBits_turns (left right : Bool) :
    (Bits6.toBits ⟨left, right, false, false, false, false⟩).extractLsb' 2 50 = 0 := by
  cases left <;> cases right <;> decide

/-- The result word of an accepted format A packet (R98). -/
theorem extract_pkdecData_fieldsA (b : BitVec 96) :
    (pkdecData (fieldsA b)).extractLsb' 0 2 = b.extractLsb' 16 2 ∧
    (pkdecData (fieldsA b)).extractLsb' 2 2 = b.extractLsb' 24 2 ∧
    (pkdecData (fieldsA b)).extractLsb' 4 8 = b.extractLsb' 32 8 ∧
    (pkdecData (fieldsA b)).extractLsb' 12 32 = (b.extractLsb' 40 16).setWidth 32 ∧
    (pkdecData (fieldsA b)).extractLsb' 44 32 = b.extractLsb' 56 32 ∧
    (pkdecData (fieldsA b)).getLsbD 76 = decide (b.extractLsb' 16 2 = 1) ∧
    (pkdecData (fieldsA b)).getLsbD 77 = decide (b.extractLsb' 24 2 = 1) ∧
    (pkdecData (fieldsA b)).extractLsb' 78 50 = 0 := by
  obtain ⟨hleft, hright, hflags, hseq, hclock, -⟩ := extract_pkdecData (fieldsA b)
  obtain ⟨hlt, hrt, -⟩ := getLsbD_toBits (fieldsA b).bits6
  have hbit := getLsbD_pkdecData_bits6 (fieldsA b)
  have habove := extract_pkdecData_bits6 (fieldsA b) 2 50
  simp only [fieldsA_eq, StatusCode.code_ofBits, extract_toBits_turns] at *
  exact ⟨hleft, hright, hflags, hseq, hclock, (hbit 0).trans hlt, (hbit 1).trans hrt, habove⟩

/-- Settles O24, a case of the decoder for each clause. -/
theorem pkdecReportsTheFirstFailure : Obligations.PkdecReportsTheFirstFailure := by
  intro s o hfmt
  refine ⟨_, _, exec_pkdec o s, ?_⟩
  rw [pktDecode_a hfmt, foldl_xor_lanes _ (le_refl 12)]
  have h12 : o.len.toNat = 12 → o.len = 12 := fun h => BitVec.eq_of_toNat_eq h
  have hrange := lane_le_three_iff o.bytes
  refine ⟨fun hlen => ?_, fun hlen hmagic => ?_, fun hlen hmagic hversion => ?_, fun hlen hmagic hversion =>
    ⟨fun hsum => ?_, fun hsum => ⟨fun hfield => ?_, fun hleft hright => ?_⟩⟩⟩
  · exact pkdec_of_error (pktDecodeA_badLen fun h => hlen (congrArg BitVec.toNat h))
  all_goals rw [h12 hlen]
  · exact pkdec_of_error (pktDecodeA_badMagic hmagic)
  · exact pkdec_of_error (pktDecodeA_badVersion hmagic hversion)
  · exact pkdec_of_error (pktDecodeA_badChecksum hmagic hversion hsum)
  · have hout : 3 < (lane o.bytes 2).toNat ∨ 3 < (lane o.bytes 3).toNat := by
      simpa only [← not_le, hrange] using hfield
    exact pkdec_of_error (pktDecodeA_badField hmagic hversion hsum hout)
  · rw [pktDecodeA_ok hmagic hversion hsum ((hrange 2).mpr hleft) ((hrange 3).mpr hright)]
    exact ⟨rfl, extract_pkdecData_fieldsA o.bytes⟩

/-! ### Format B -/

theorem pktDecodeB_badLen (p : Params) (b : BitVec 96) {len : BitVec 4} (hlen : len ≠ 5) :
    pktDecodeB p b len = .error .badLen :=
  if_pos hlen

theorem pktDecodeB_five (p : Params) (b : BitVec 96) : pktDecodeB p b 5 = .ok (fieldsB p b) :=
  if_neg (not_not.mpr rfl)

theorem code_codeOfTurn (v : Bool) : (codeOfTurn v).code = if v then 1 else 0 := by
  cases v <;> rfl

theorem byteOf_word32 (b0 b1 b2 b3 : Byte) :
    byteOf (word32 b0 b1 b2 b3) 0 = b0 ∧ byteOf (word32 b0 b1 b2 b3) 1 = b1 ∧ byteOf (word32 b0 b1 b2 b3) 2 = b2 ∧
    byteOf (word32 b0 b1 b2 b3) 3 = b3 := by
  simp (disch := decide) [byteOf, word32, extract_or, extract_place_same, extract_place_disjoint]

/-- The sequence of a format B packet is its first 32 bits (R93). -/
theorem seqB_of_le {p : Params} (h : p.bSeqLe = true) (b : BitVec 96) : seqB p b = b.extractLsb' 0 32 := by
  rw [seqB, if_pos h]
  exact word32_lanes b 0

/-- In the other byte order, byte `k` of the sequence is lane `3 - k` (log 9). -/
theorem byteOf_seqB_of_be {p : Params} (h : p.bSeqLe = false) (b : BitVec 96) {k : Nat} (hk : k < 4) :
    byteOf (seqB p b) k = b.extractLsb' (24 - 8 * k) 8 := by
  obtain ⟨h0, h1, h2, h3⟩ := byteOf_word32 (lane b 3) (lane b 2) (lane b 1) (lane b 0)
  rw [seqB, h, if_neg Bool.false_ne_true]
  interval_cases k
  exacts [h0, h1, h2, h3]

/-- The six flags of a format B packet in the result word (R93, R98). -/
theorem getLsbD_pkdecData_fieldsB (p : Params) (b : BitVec 96) :
    (pkdecData (fieldsB p b)).getLsbD 76 = b.getLsbD (32 + p.bBit.lt.val) ∧
    (pkdecData (fieldsB p b)).getLsbD 77 = b.getLsbD (32 + p.bBit.rt.val) ∧
    (pkdecData (fieldsB p b)).getLsbD 78 = b.getLsbD (32 + p.bBit.ap.val) ∧
    (pkdecData (fieldsB p b)).getLsbD 79 = b.getLsbD (32 + p.bBit.ch.val) ∧
    (pkdecData (fieldsB p b)).getLsbD 80 = b.getLsbD (32 + p.bBit.pl.val) ∧
    (pkdecData (fieldsB p b)).getLsbD 81 = b.getLsbD (32 + p.bBit.tr.val) := by
  have hmask : ∀ k : Fin 8, (lane b 4).getLsbD k.val = b.getLsbD (32 + k.val) := by
    intro k
    rw [getLsbD_lane, decide_eq_true k.isLt, Bool.true_and]
  have hbit := getLsbD_pkdecData_bits6 (fieldsB p b)
  obtain ⟨hlt, hrt, hap, hch, hpl, htr⟩ := getLsbD_toBits (fieldsB p b).bits6
  exact ⟨(hbit 0).trans (hlt.trans (hmask _)), (hbit 1).trans (hrt.trans (hmask _)),
    (hbit 2).trans (hap.trans (hmask _)), (hbit 3).trans (hch.trans (hmask _)), (hbit 4).trans (hpl.trans (hmask _)),
    (hbit 5).trans (htr.trans (hmask _))⟩

/-- The codes that format B does not carry follow the turn flags of the result word (D10). -/
theorem extract_code_pkdecData_fieldsB (p : Params) (b : BitVec 96) :
    (pkdecData (fieldsB p b)).extractLsb' 0 2 = (if (pkdecData (fieldsB p b)).getLsbD 76 then 1 else 0) ∧
    (pkdecData (fieldsB p b)).extractLsb' 2 2 = (if (pkdecData (fieldsB p b)).getLsbD 77 then 1 else 0) := by
  have hbit := getLsbD_pkdecData_bits6 (fieldsB p b)
  obtain ⟨hleft, hright, -⟩ := extract_pkdecData (fieldsB p b)
  obtain ⟨hlt, hrt, -⟩ := getLsbD_toBits (fieldsB p b).bits6
  rw [hleft, hright, (hbit 0).trans hlt, (hbit 1).trans hrt]
  exact ⟨code_codeOfTurn _, code_codeOfTurn _⟩

/-- Settles O25: with five bytes the packet is accepted, whatever they are. -/
theorem pkdecFormatBChecksTheLengthAlone : Obligations.PkdecFormatBChecksTheLengthAlone := by
  intro s o hfmt
  have hexec := exec_pkdec o s
  rw [pktDecode_b hfmt] at hexec
  refine ⟨fun hlen => ?_, fun hlen => ?_⟩
  · rw [pktDecodeB_badLen _ _ fun h => hlen (congrArg BitVec.toNat h)] at hexec
    exact hexec
  · have hlen5 : o.len = 5 := BitVec.eq_of_toNat_eq hlen
    rw [hlen5, pktDecodeB_five] at hexec
    obtain ⟨-, -, hflags, hseq, hclock, -⟩ := extract_pkdecData (fieldsB s.params o.bytes)
    obtain ⟨hlt, hrt, hap, hch, hpl, htr⟩ := getLsbD_pkdecData_fieldsB s.params o.bytes
    obtain ⟨hleft, hright⟩ := extract_code_pkdecData_fieldsB s.params o.bytes
    refine ⟨_, hexec, fun hle => hseq.trans (seqB_of_le hle _), fun hle k hk => ?_, hlt, hrt, hap, hch, hpl, htr, hleft,
      hright, hflags, hclock, extract_pkdecData_above _ 46⟩
    rw [← byteOf_seqB_of_be hle _ hk, ← extract_extract _ 12 (show 8 * k + 8 ≤ 32 by omega)]
    exact congrArg (byteOf · k) hseq

end Sys2Proof.Machine
end

section
/-! Single-bit errors of a packet (R100): a flipped bit changes one lane, and the checksum of the twelve lanes by that one
bit. -/

namespace Sys2Proof.Machine

/-! ### A flipped bit -/

theorem getLsbD_one_shiftLeft {w : Nat} (i j : Nat) : (1#w <<< i).getLsbD j = (decide (i < w) && decide (i = j)) :=
  BitVec.getLsbD_twoPow i j

section
variable (b : BitVec 96) {k j : Nat} (hj : j < 8)
include hj

/-- A flipped bit is flipped in its own lane. -/
theorem lane_flip_same (hk : k < 12) : lane (b ^^^ 1#96 <<< (8 * k + j)) k = lane b k ^^^ 1#8 <<< j := by
  apply BitVec.eq_of_getLsbD_eq
  intro i hi
  have h96 : 8 * k + j < 96 := by omega
  have hsame : 8 * k + j = 8 * k + i ↔ j = i := by omega
  simp only [BitVec.getLsbD_xor, getLsbD_lane, getLsbD_one_shiftLeft, hi, hj, h96, hsame, decide_true, Bool.true_and]

/-- A flipped bit leaves every other lane. -/
theorem lane_flip_other {m : Nat} (hm : m ≠ k) : lane (b ^^^ 1#96 <<< (8 * k + j)) m = lane b m := by
  apply BitVec.eq_of_getLsbD_eq
  intro i hi
  have hother : ¬ 8 * k + j = 8 * m + i := by omega
  simp only [BitVec.getLsbD_xor, getLsbD_lane, getLsbD_one_shiftLeft, hother, decide_false, Bool.and_false,
    Bool.xor_false]

theorem lanes_flip (hk : k < 12) :
    lanes (b ^^^ 1#96 <<< (8 * k + j)) = (lanes b).set k ((lanes b).getD k 0 ^^^ 1#8 <<< j) := by
  rw [getD_lanes b k hk]
  apply List.ext_getElem
  · rw [List.length_set, length_lanes, length_lanes]
  · intro m _ _
    rw [List.getElem_set]
    split_ifs with hkm
    · subst hkm
      simpa [lanes] using lane_flip_same b hj hk
    · simpa [lanes] using lane_flip_other b hj (Ne.symm hkm)

/-- A flipped bit is flipped in the checksum of all twelve lanes (R90). -/
theorem xorsum_lanes_flip (hk : k < 12) :
    xorsum (lanes (b ^^^ 1#96 <<< (8 * k + j))) 12 = xorsum (lanes b) 12 ^^^ 1#8 <<< j := by
  have hall : ∀ c : BitVec 96, xorsum (lanes c) 12 = xorAll (lanes c) := fun _ => rfl
  rw [hall, hall, lanes_flip b hj hk, xorAll_set_xor _ (hk.trans_eq (length_lanes b).symm)]

end

theorem xor_one_shiftLeft_ne (x : Byte) {j : Nat} (hj : j < 8) : x ^^^ 1#8 <<< j ≠ x := by
  intro h
  have hbit := congrArg (BitVec.getLsbD · j) h
  simp only [BitVec.getLsbD_xor, getLsbD_one_shiftLeft, hj, decide_true, Bool.and_true, Bool.xor_true] at hbit
  exact Bool.not_ne_self _ hbit

/-! ### The decoder on a packet with flipped bits -/

/-- A packet whose twelve lanes fold to 0 is not rejected for its checksum (R97). -/
theorem pktDecodeA_ne_badChecksum {p : Params} {b : BitVec 96} {len : BitVec 4} (hsum : xorsum (lanes b) 12 = 0) :
    pktDecodeA p b len ≠ .error .badChecksum := by
  have hlast := (xorsum_lanes_eq_zero_iff b).mp hsum
  simp only [pktDecodeA, hlast, ne_eq, not_true_eq_false, if_false]
  split_ifs <;> simp

theorem exists_lane_bit (i : Nat) : ∃ k j, j < 8 ∧ i = 8 * k + j :=
  ⟨i / 8, i % 8, Nat.mod_lt _ (by decide), (Nat.div_add_mod i 8).symm⟩

/-- Settles O23: a flip in lane 0 or 1 is seen there, any other single flip by the checksum, and two flips at one bit
position cancel in it. -/
theorem singleBitErrorsAreDetected : Obligations.SingleBitErrorsAreDetected := by
  refine ⟨fun p b f hfmt hok => ?_, fun p b hfmt => ⟨_, (pktDecode_b hfmt b 5).trans (pktDecodeB_five p b)⟩⟩
  simp only [pktDecode_a hfmt] at hok ⊢
  obtain ⟨-, hmagic, hversion, hlast, -⟩ := (pktDecodeA_ok_iff _ _ _ _).mp hok
  have hsum := (xorsum_lanes_eq_zero_iff b).mpr hlast
  refine ⟨fun i hi => ?magic, fun i hlo hhi => ?version, fun i hlo hhi => ?checksum, fun k k' j _ hk _ hk' _ hj => ?two⟩
  case magic =>
    obtain ⟨k, j, hj, rfl⟩ := exists_lane_bit i
    obtain rfl : k = 0 := by omega
    apply pktDecodeA_badMagic
    rw [lane_flip_same b hj (by decide), ← hmagic]
    exact xor_one_shiftLeft_ne _ hj
  case version =>
    obtain ⟨k, j, hj, rfl⟩ := exists_lane_bit i
    obtain rfl : k = 1 := by omega
    apply pktDecodeA_badVersion ((lane_flip_other b hj (by decide)).trans hmagic)
    rw [lane_flip_same b hj (by decide), ← hversion]
    exact xor_one_shiftLeft_ne _ hj
  case checksum =>
    obtain ⟨k, j, hj, rfl⟩ := exists_lane_bit i
    apply pktDecodeA_badChecksum ((lane_flip_other b hj (by omega)).trans hmagic)
      ((lane_flip_other b hj (by omega)).trans hversion)
    rw [xorsum_lanes_flip b hj (by omega), ← hsum]
    exact xor_one_shiftLeft_ne _ hj
  case two =>
    apply pktDecodeA_ne_badChecksum
    rw [xorsum_lanes_flip _ hj hk', xorsum_lanes_flip _ hj hk, hsum, BitVec.xor_assoc, BitVec.xor_self]
    exact BitVec.xor_zero

end Sys2Proof.Machine
end

section
/-! A rejected packet reaches no state (R101): the packet's status goes into the answer of a TICK and nowhere else. -/

namespace Sys2Proof.Machine

/-- The packet's status is read by the answer of a tick alone (R66, R170). -/
theorem afterPacket_status_congr (s : State) (st st' : Status) :
    s.afterPacket st = { s.afterPacket st' with answer := (s.afterPacket st).answer } := by
  unfold State.afterPacket
  cases s.gateOpen <;> rfl

/-- Settles O29: POLL leaves the rejection, and from there a TICK finds no fresh packet. -/
theorem rejectedPacketMutatesNothing : Obligations.RejectedPacketMutatesNothing := by
  intro s r hfresh hreject
  have htaken := packetStep_of_not_fresh { s with mb := { s.mb with fresh := false }, rxstat := r.status } rfl
  have hstep := packetStep_rejected s r hfresh hreject
  refine ⟨?_, _, _, exec_tick s, exec_tick _, ?_⟩
  · rw [exec_poll, hstep]
    rfl
  · rw [hstep, htaken]
    exact afterPacket_status_congr _ _ _

end Sys2Proof.Machine
end

section
/-! The answer of POLL (R111): NO_PKT where no packet waits, and what an accepted packet leaves and reports, its
sequence compared with the one before modulo `2^SW` (R112, R114). -/

namespace Sys2Proof.Machine

/-- Without a fresh packet POLL answers NO_PKT and writes no register (R111). -/
theorem exec_poll_of_not_fresh {s : State} (h : s.mb.fresh = false) : exec .poll s = .next (s.raise .noPkt) := by
  rw [exec_poll, packetStep_of_not_fresh s h]
  rfl

/-- Settles O28: POLL leaves the freshness marker cleared. -/
theorem pollWithoutAFreshPacket : Obligations.PollWithoutAFreshPacket := by
  refine ⟨fun s hfresh => exec_poll_of_not_fresh hfresh, fun s t hpoll => ?_⟩
  cases hpoll
  exact exec_poll_of_not_fresh (congrArg Mailbox.fresh s.packetStep_post_mb)

/-- The state an accepting POLL leaves, register by register. -/
theorem exec_poll_of_accepted {s : State} {f : PktFields} (hfresh : s.mb.fresh = true)
    (hok : pktDecode s.params s.mb.data s.mb.len = .ok f) :
    exec .poll s = .next
      { s with
        vs := { bits6 := f.bits6, ls := f.left, rs := f.right, flags := f.flags }
        lv := { valid := true, lastRx := s.mb.rxTime, lastSeq := f.seq, qValid := s.mb.qValid, q := s.mb.q,
                senderClock := f.clock }
        mb := { s.mb with fresh := false }
        rxstat := .ok
        mls := if s.params.hasModeFsm then s.mls.onPacket (meaningful s.params f) s.mb.rxTime else s.mls
        answer := some { status := .ok, data := pollData s.params f s.lv, statCfg := none }
        surf := [] } := by
  rw [exec_poll, packetStep_accepted s f hfresh hok]
  rfl

/-- A format A packet sets the two turn Booleans and no other (R97, D10). -/
theorem status_bits_of_pktDecode_a {p : Params} {b : BitVec 96} {len : BitVec 4} {f : PktFields} (hfmt : p.fmt = .a)
    (hok : pktDecode p b len = .ok f) :
    f.bits6.ap = false ∧ f.bits6.ch = false ∧ f.bits6.pl = false ∧ f.bits6.tr = false := by
  rw [pktDecode_a hfmt, pktDecodeA_ok_iff] at hok
  obtain ⟨-, -, -, -, -, -, rfl⟩ := hok
  exact ⟨rfl, rfl, rfl, rfl⟩

/-- Settles O30, from the state an accepting POLL leaves. -/
theorem acceptedPacketOverwritesWholesale : Obligations.AcceptedPacketOverwritesWholesale := by
  intro s f hfresh hok
  refine ⟨_, _, exec_poll_of_accepted hfresh hok, rfl, rfl, fun hfmt => status_bits_of_pktDecode_a hfmt hok, rfl, rfl,
    rfl, rfl, rfl, rfl, rfl, rfl, rfl, rfl, rfl, rfl, fun hfsm => ?_, rfl⟩
  simp only [hfsm, Bool.false_eq_true, if_false]

/-! ### The sequence comparison -/

theorem seqWidth_eq {p : Params} {w : Nat} (ha : p.fmt = .a → w = 16) (hb : p.fmt = .b → w = 32) :
    p.seqWidth = w := by
  cases hfmt : p.fmt with
  | a => rw [Params.seqWidth, hfmt, ha hfmt]
  | b => rw [Params.seqWidth, hfmt, hb hfmt]

/-- The difference of two sequences wraps at `2^SW`, and `SW` is at most the 32 bits they are held in (R114). -/
theorem toNat_seqDelta (p : Params) (a b : BitVec 32) :
    (seqDelta p a b).toNat = (a.toNat + 2 ^ 32 - b.toNat) % 2 ^ p.seqWidth := by
  rw [seqDelta, BitVec.toNat_ofNat, BitVec.toNat_sub]
  cases hfmt : p.fmt <;> simp only [Params.seqWidth, hfmt] <;> omega

theorem seqNewer_iff (p : Params) (a b : BitVec 32) :
    seqNewer p a b = true ↔ 0 < (seqDelta p a b).toNat ∧ (seqDelta p a b).toNat < 2 ^ (p.seqWidth - 1) := by
  simp only [seqNewer, Bool.and_eq_true, decide_eq_true_eq]

section
variable (p : Params) (f : PktFields) (old : LivenessRecord)

/-- The two flags of the result word (R66). -/
theorem getLsbD_pollData :
    (pollData p f old).getLsbD 0 = old.valid ∧
    (pollData p f old).getLsbD 1 = (old.valid && seqNewer p f.seq old.lastSeq) := by
  simp (disch := decide) only [pollData, getLsbD_or', getLsbD_placeBit_same, getLsbD_placeBit_other,
    getLsbD_place_disjoint, Bool.or_false, Bool.false_or, and_self]

/-- Above them stand the difference of the sequences and nothing else (R66). -/
theorem extract_pollData :
    (pollData p f old).extractLsb' 2 32 = seqDelta p f.seq old.lastSeq ∧
    (pollData p f old).extractLsb' 34 94 = 0 := by
  simp (disch := decide) [pollData, extract_or, extract_placeBit_disjoint, extract_place_same, extract_place_disjoint]

end

/-- Settles O31, from the result word of an accepting POLL. -/
theorem sequenceComparisonSurvivesTheWrap : Obligations.SequenceComparisonSurvivesTheWrap := by
  intro s f w hfresh hok ha hb
  obtain rfl := seqWidth_eq ha hb
  obtain ⟨hprev, hnewer⟩ := getLsbD_pollData s.params f s.lv
  obtain ⟨hdelta, habove⟩ := extract_pollData s.params f s.lv
  refine ⟨_, _, exec_poll_of_accepted hfresh hok, rfl, rfl, hprev, ?_, ?_, habove⟩
  · rw [hdelta, toNat_seqDelta]
  · rw [hnewer, hdelta, Bool.and_eq_true, seqNewer_iff]

end Sys2Proof.Machine
end

section
/-! Liveness (R113): an age, which STAT reports and acceptance does not read (R116). -/

namespace Sys2Proof.Machine

/-- The difference of two times on a wrapping counter is the true one while that is below one wrap (R222). -/
theorem toNat_ofNat_sub_ofNat {w a b : Nat} (hle : b ≤ a) (hlt : a - b < 2 ^ w) :
    (BitVec.ofNat w a - BitVec.ofNat w b).toNat = a - b := by
  obtain ⟨k, rfl⟩ := Nat.exists_eq_add_of_le hle
  have hk : k < 2 ^ w := by omega
  rw [BitVec.ofNat_add, BitVec.add_comm, BitVec.add_sub_cancel, BitVec.toNat_ofNat, Nat.mod_eq_of_lt hk,
    Nat.add_sub_cancel_left]

theorem getLsbD_statData_alive (s : State) : (statData s).getLsbD 51 = s.alive s.now := by
  simp (disch := decide) only [statData, getLsbD_or', getLsbD_placeBit_same, getLsbD_placeBit_other,
    getLsbD_place_disjoint, Bool.or_false, Bool.false_or]

/-- Settles O32: the elapsed time is the true age. -/
theorem aliveIsAnAgeWithinTheDeadWindow : Obligations.AliveIsAnAgeWithinTheDeadWindow := by
  intro s received current hnow hrx hle hlt
  refine ⟨statData s, rfl, ?_⟩
  rw [getLsbD_statData_alive, alive_iff, State.now, hnow, hrx, toNat_ofNat_sub_ofNat hle hlt, Nat.sub_le_iff_le_add']

theorem PktReject.status_ne_ok (r : PktReject) : r.status ≠ .ok := by
  cases r <;> decide

/-- Another liveness record, configuration and setting of the pins are carried along by the packet sub-step: it reads
the record for its result word alone, and replaces it where it accepts. -/
theorem packetStep_with_liveness (s : State) (lv : LivenessRecord) (c : CfgRec) (q : Pins) :
    ∃ d, ({ s with lv := lv, cfg := c, pins := q } : State).packetStep =
      { status := s.packetStep.status
        data := d
        post := { s.packetStep.post with
                  lv := if s.packetStep.status = .ok then s.packetStep.post.lv else lv
                  cfg := c
                  pins := q } } := by
  refine ⟨({ s with lv := lv, cfg := c, pins := q } : State).packetStep.data, ?_⟩
  cases hf : s.mb.fresh with
  | false =>
    rw [packetStep_of_not_fresh s hf, packetStep_of_not_fresh { s with lv := lv, cfg := c, pins := q } hf]
    rfl
  | true =>
    cases hd : pktDecode s.params s.mb.data s.mb.len with
    | error r =>
      rw [packetStep_rejected s r hf hd, packetStep_rejected { s with lv := lv, cfg := c, pins := q } r hf hd,
        if_neg (PktReject.status_ne_ok r)]
    | ok f =>
      rw [packetStep_accepted s f hf hd, packetStep_accepted { s with lv := lv, cfg := c, pins := q } f hf hd,
        if_pos rfl]

/-- Settles O33: the two packet sub-steps have one status and leave the same registers. -/
theorem livenessNeverGatesAcceptance : Obligations.LivenessNeverGatesAcceptance := by
  intro s lv w now
  obtain ⟨d', hstep⟩ := packetStep_with_liveness s lv { s.cfg with deadWindow := w } { s.pins with now := now }
  refine ⟨_, _, s.packetStep.status, s.packetStep.data, d', exec_poll s, exec_poll _, rfl, ?_⟩
  rw [hstep]
  exact ⟨rfl, rfl, rfl, rfl, rfl, fun hok => if_pos hok⟩

end Sys2Proof.Machine
end

section
/-! An advancing tick (R170 to R172): the timer, link loss (R117) and the answer. -/

namespace Sys2Proof.Machine

theorem modeRead_of_present {s : State} (h : s.params.hasModeFsm = true) : s.modeRead = s.mls.mode := if_pos h

section
variable (s : State) (pst : Status)

theorem getLsbD_tickData_alive : (tickData s pst).getLsbD 6 = s.alive s.now := by
  simp (disch := decide) only [tickData, getLsbD_or', getLsbD_placeBit_same, getLsbD_place_disjoint, Bool.or_false,
    Bool.false_or]

/-- The mode and the packet status in the result word of an advancing tick (R66). -/
theorem extract_tickData :
    (tickData s pst).extractLsb' 7 3 = s.modeRead.code ∧ (tickData s pst).extractLsb' 10 4 = pst.code := by
  simp (disch := decide) [tickData, extract_or, extract_placeBit_disjoint, extract_place_same, extract_place_disjoint]

end

/-- Sub-steps 2 to 6 write nothing that `alive` reads (R113). -/
theorem State.tickState_alive (s : State) : s.tickState.alive s.tickState.now = s.alive s.now := by
  have hnow : s.tickState.now = s.now := congrArg Pins.now s.tickState_pins
  rw [hnow, State.alive, State.alive, State.tickState_lv, State.tickState_cfg]

/-- Link loss clears the vehicle state (R117). -/
theorem State.tickState_vs (s : State) : s.tickState.vs = if s.alive s.now then s.vs else .zero := by
  rw [tickState_eq]

/-- Without the state machine there are no mode timers (R190). -/
theorem State.tickState_mls_of_absent {s : State} (h : s.params.hasModeFsm = false) : s.tickState.mls = s.mls := by
  simp only [tickState_eq, h, Bool.false_eq_true, if_false]

/-- Settles O36: the gate is open, and sub-steps 2 to 6 start from the state POLL leaves. -/
theorem tickAdvancesFromTheFramePeriodOn : Obligations.TickAdvancesFromTheFramePeriodOn := by
  intro s u st d hpoll hanswer hgate
  have htick := exec_tick_of_gate s hgate
  cases hpoll
  cases hanswer
  rw [← s.packetStep_post_pins]
  generalize s.packetStep.post = v at htick ⊢
  obtain ⟨hmode, hstatus⟩ := extract_tickData v.tickState s.packetStep.status
  have halive := (getLsbD_tickData_alive v.tickState s.packetStep.status).trans v.tickState_alive
  refine ⟨_, _, htick, rfl, v.tickState_tf, v.tickState_lv, v.tickState_mb, v.tickState_rxstat, v.tickState_ovr,
    v.tickState_cfg, v.tickState_params, v.tickState_pins, v.tickState_script, v.tickState_rstHeld, fun hlive => ?live,
    fun hdead => ?dead, fun hfsm => ?present, fun hfsm => ?absent, hstatus⟩
  case live =>
    have hlink : v.alive v.now = true := (alive_iff v v.now).mpr hlive
    exact ⟨v.tickState_vs.trans (if_pos hlink), halive.trans hlink⟩
  case dead =>
    have hlink : ¬ v.alive v.now = true := mt (alive_iff v v.now).mp hdead
    exact ⟨v.tickState_vs.trans (if_neg hlink), halive.trans (Bool.eq_false_of_not_eq_true hlink)⟩
  case present => exact hmode.trans (congrArg Mode.code (modeRead_of_present hfsm))
  case absent =>
    have habsent : v.params.hasModeFsm = false := by rwa [State.emitFrame_params, State.tickState_params] at hfsm
    exact ⟨hmode.trans (congrArg Mode.code (modeRead_of_absent hfsm)), State.tickState_mls_of_absent habsent⟩

end Sys2Proof.Machine
end

section
/-! The mode does not reach the relay (R197): each operation confines another value of the mode registers to them and to
what it shows on the output ports. -/

namespace Sys2Proof.Machine

/-- Another value of the mode registers reaches the mode registers alone in the packet sub-step (R193, R197). -/
theorem packetStep_with_mls (s : State) (m : ModeRegs) :
    ∃ m', ({ s with mls := m } : State).packetStep =
      { s.packetStep with post := { s.packetStep.post with mls := m' } } := by
  refine ⟨({ s with mls := m } : State).packetStep.post.mls, ?_⟩
  cases hf : s.mb.fresh with
  | false => rw [packetStep_of_not_fresh s hf, packetStep_of_not_fresh { s with mls := m } hf]
  | true =>
    cases hd : pktDecode s.params s.mb.data s.mb.len with
    | error r => rw [packetStep_rejected s r hf hd, packetStep_rejected { s with mls := m } r hf hd]
    | ok f => rw [packetStep_accepted s f hf hd, packetStep_accepted { s with mls := m } f hf hd]

theorem tickState_with_mls (s : State) (m : ModeRegs) :
    ∃ m', ({ s with mls := m } : State).tickState = { s.tickState with mls := m' } := by
  refine ⟨({ s with mls := m } : State).tickState.mls, ?_⟩
  rw [tickState_eq, tickState_eq]
  rfl

theorem reportTransport_with_mls (s : State) (m : ModeRegs) (ok : Bool) :
    ∃ m', ({ s with mls := m } : State).reportTransport ok = { s.reportTransport ok with mls := m' } := by
  refine ⟨(({ s with mls := m } : State).reportTransport ok).mls, ?_⟩
  simp only [State.reportTransport]
  split_ifs <;> rfl

theorem afterPacket_with_mls (s : State) (m : ModeRegs) (st : Status) :
    ∃ m' a e n, ({ s with mls := m } : State).afterPacket st =
      { s.afterPacket st with mls := m', answer := a, surf := e, draws := n } := by
  obtain ⟨m', htick⟩ := tickState_with_mls s m
  have hgate : ({ s with mls := m } : State).gateOpen = s.gateOpen := rfl
  unfold State.afterPacket
  rw [hgate, htick]
  cases s.gateOpen <;> exact ⟨_, _, _, _, rfl⟩

/-- Two runs of an operation from states that differ in the mode registers alone end in states that differ in them,
in the answer, in the surface events and in the count of draws alone. -/
theorem exec_with_mls {i : Instr} {s t t' : State} {m : ModeRegs} (h : exec i s = .next t)
    (h' : exec i { s with mls := m } = .next t') :
    ∃ m' a e n, t' = { t with mls := m', answer := a, surf := e, draws := n } := by
  cases i with
  | bfx | sdec | csum | pkenc | pkdec | stat | arb =>
    cases exec_effect h
    cases exec_effect h'
    exact ⟨_, _, _, _, rfl⟩
  | rx | ovrd =>
    cases h
    cases h'
    exact ⟨_, _, _, _, rfl⟩
  | reconf =>
    simp only [exec, execReconf] at h h'
    split at h <;> cases h
    split at h' <;> cases h'
    exact ⟨_, _, _, _, rfl⟩
  | tinit o =>
    cases h
    cases h'
    obtain ⟨m', hreport⟩ := reportTransport_with_mls s m o.ok
    rw [hreport]
    exact ⟨_, _, _, _, rfl⟩
  | poll =>
    cases h
    cases h'
    obtain ⟨m', hstep⟩ := packetStep_with_mls s m
    rw [hstep]
    exact ⟨_, _, _, _, rfl⟩
  | tick =>
    cases h
    cases h'
    obtain ⟨m', hstep⟩ := packetStep_with_mls s m
    rw [hstep]
    exact afterPacket_with_mls _ _ _

/-- Settles O56: none of the registers named, and nothing arbitration reads, is among those that differ. -/
theorem modeNeverReachesTheRelay : Obligations.ModeNeverReachesTheRelay := by
  intro i s t t' m h h'
  obtain ⟨m', a, e, n, rfl⟩ := exec_with_mls h h'
  exact ⟨rfl, rfl, rfl, rfl, rfl, rfl, rfl, rfl, rfl, rfl⟩

end Sys2Proof.Machine
end

section
/-! A debouncer over any number of advancing ticks (R130, R131), and the sample an advancing tick gives it (R132). -/

namespace Sys2Proof.Machine

section
variable {hold : BitVec 32} {d : DebounceRec} {t : Time}

/-- A false sample more than `HOLD` after the last true one releases an active side (R130). -/
theorem debounceStep_false_of_lt (ha : d.active = true) (h : hold.toNat < (t - d.lastTrue).toNat) :
    debounceStep hold d false t = { active := false, lastTrue := d.lastTrue } := by
  obtain ⟨-, -, heq⟩ | ⟨hinactive | hle, -⟩ := debounceStep_false_cases hold d t
  · exact heq
  · rw [ha] at hinactive
    contradiction
  · omega

theorem debounceStep_false_of_inactive (ha : d.active = false) : debounceStep hold d false t = d := by
  obtain ⟨hactive, -, -⟩ | ⟨-, heq⟩ := debounceStep_false_cases hold d t
  · rw [ha] at hactive
    contradiction
  · exact heq

end

/-- False samples leave a released side as it is, however many (R131). -/
theorem foldl_debounceStep_false_of_inactive {hold : BitVec 32} {d : DebounceRec} (ticks : List Time)
    (ha : d.active = false) : ticks.foldl (fun d t => debounceStep hold d false t) d = d := by
  induction ticks with
  | nil => rfl
  | cons t ticks ih => rw [List.foldl_cons, debounceStep_false_of_inactive ha, ih]

/-- Settles O38: before the tick past `HOLD` the record is that of the last true sample, from it on the released one. -/
theorem debounceMasksShortGapsAndReleases : Obligations.DebounceMasksShortGapsAndReleases := by
  refine ⟨fun hold t0 ticks hticks => ?gap, fun hold t0 tk before after hbefore htk => ?release,
    fun hold d ticks t => ?retrigger⟩
  case gap => exact foldl_debounceStep_false_of_le hticks
  case release =>
    rw [List.foldl_append, foldl_debounceStep_false_of_le (d := ⟨true, t0⟩) hbefore, List.foldl_cons,
      debounceStep_false_of_lt rfl htk, foldl_debounceStep_false_of_inactive after rfl]
  case retrigger => rw [List.foldl_append, List.foldl_cons, List.foldl_nil, debounceStep_true]

section
variable {s : State}

/-- With the test flag set the samples are the override's (R132). -/
theorem tickSample_of_override (hovr : s.ovr.en = true) :
    s.tickSample .left = s.ovr.bits6.lt ∧ s.tickSample .right = s.ovr.bits6.rt := by
  simp [State.tickSample, State.sample, State.eff6, hovr]

theorem tickSample_of_alive (hovr : s.ovr.en = false) (hlink : s.alive s.now = true) :
    s.tickSample .left = s.vs.bits6.lt ∧ s.tickSample .right = s.vs.bits6.rt := by
  simp [State.tickSample, State.sample, State.eff6, hovr, hlink]

/-- After link loss the samples are those of the safe default (R117, R132). -/
theorem tickSample_of_link_lost (hovr : s.ovr.en = false) (hlink : s.alive s.now = false) :
    s.tickSample .left = false ∧ s.tickSample .right = false := by
  simp [State.tickSample, State.sample, State.eff6, hovr, hlink, VehicleState.zero, Bits6.zero]

end

/-- The record of a side after an advancing tick (R130, R172). -/
theorem tickState_db_get (s : State) (side : Side) :
    s.tickState.db.get side = debounceStep s.cfg.hold (s.db.get side) (s.tickSample side) s.now := by
  rw [tickState_eq]
  cases side <;> rfl

/-- Settles O37: the record of a side is one debounce step on the sample, which the state POLL leaves determines. -/
theorem tickDebouncesEachSide : Obligations.TickDebouncesEachSide := by
  intro s u left right hpoll hgate hovr hlive hlost
  have htick := exec_tick_of_gate s hgate
  cases hpoll
  have hdb := tickState_db_get s.packetStep.post
  rw [State.now, s.packetStep_post_cfg, s.packetStep_post_db, s.packetStep_post_pins] at hdb
  rw [← s.packetStep_post_ovr] at hovr hlive hlost
  rw [← s.packetStep_post_pins] at hlive hlost
  generalize s.packetStep.post = v at htick hdb hovr hlive hlost
  obtain ⟨hleft, hright⟩ : v.tickSample .left = left ∧ v.tickSample .right = right := by
    cases hen : v.ovr.en with
    | true =>
      obtain ⟨rfl, rfl⟩ := hovr hen
      exact tickSample_of_override hen
    | false =>
      cases hlink : v.alive v.now with
      | true =>
        obtain ⟨hvalid, hage⟩ := (alive_iff v v.now).mp hlink
        obtain ⟨rfl, rfl⟩ := hlive hen hvalid hage
        exact tickSample_of_alive hen hlink
      | false =>
        obtain ⟨rfl, rfl⟩ := hlost hen (mt (alive_iff v v.now).mpr (Bool.eq_false_iff.mp hlink))
        exact tickSample_of_link_lost hen hlink
  refine ⟨_, htick, fun side => ⟨fun _ htrue => ?left, fun _ htrue => ?right, fun hfalse => ?released⟩⟩
  case left => exact (hdb .left).trans (by rw [hleft, htrue, debounceStep_true])
  case right => exact (hdb .right).trans (by rw [hright, htrue, debounceStep_true])
  case released =>
    have hsample : v.tickSample side = false := by
      obtain ⟨rfl, h⟩ | ⟨rfl, h⟩ := hfalse
      · exact hleft.trans h
      · exact hright.trans h
    rw [State.emitFrame_db, hdb side, hsample]
    exact ⟨debounceStep_false_of_lt, fun _ => debounceStep_false_of_le, debounceStep_false_of_inactive⟩

end Sys2Proof.Machine
end

section
/-! Arbitration (R140, R143): the highest eligible category of each side, as an advancing tick answers it. -/

namespace Sys2Proof.Machine

/-- The arbiter in terms of eligibility (R140): its result is eligible, and no category above it is. -/
theorem arbitrate_eligible {al : Bool} {en cond : PerCategory Bool} {el : Category → Bool}
    (hel : ∀ c, el c = (al && en.get c && cond.get c)) :
    (∀ c, arbitrate al en cond = some c → el c = true ∧ ∀ c' : Category, c'.code < c.code → el c' = false) ∧
    (arbitrate al en cond = none → ∀ c, el c = false) := by
  obtain ⟨hsome, hnone⟩ := arbitrate_spec al en cond
  refine ⟨fun c hc => ?_, fun h c => ?_⟩
  · obtain ⟨hal, hen, hcond, habove⟩ := hsome c hc
    refine ⟨by rw [hel, hal, hen, hcond]; rfl, fun c' hlt => ?_⟩
    rw [hel, Bool.and_assoc, habove c' hlt, Bool.and_false]
  · rw [hel, Bool.and_assoc]
    obtain hal | hcat := hnone h
    · rw [hal, Bool.false_and]
    · rw [hcat c, Bool.and_false]

/-- The two sides' results in the result word of an advancing tick (R66). -/
theorem extract_tickData_priority (s : State) (pst : Status) :
    (tickData s pst).extractLsb' 0 3 = prCode (s.priority .left) ∧
    (tickData s pst).extractLsb' 3 3 = prCode (s.priority .right) := by
  simp (disch := decide) [tickData, extract_or, extract_placeBit_disjoint, extract_place_same, extract_place_disjoint]

/-- The side enters arbitration by its debounced turn bit alone (R143). -/
theorem priority_congr {s : State} {side side' : Side} (h : (s.db.get side).active = (s.db.get side').active) :
    s.priority side = s.priority side' := by
  rw [State.priority, State.priority, State.conditions, State.conditions, h]

/-- Settles O40: the answer holds the arbiter's results on the state the debouncers left. -/
theorem tickArbitratesEachSide : Obligations.TickArbitratesEachSide := by
  intro s t d hgate htick hanswer
  rw [exec_tick_of_gate s hgate] at htick
  cases htick
  cases hanswer
  generalize s.packetStep.post.tickState = v
  obtain ⟨hleft, hright⟩ := extract_tickData_priority v s.packetStep.status
  refine ⟨fun side => ⟨v.priority side, ?_, fun eff heff el hel => ?_⟩, fun hturn => ?_⟩
  · cases side
    · exact hleft
    · exact hright
  · subst heff
    refine arbitrate_eligible fun c => (hel c).trans ?_
    cases c <;> rfl
  · rw [hleft, hright, priority_congr (s := v) (side := .left) (side' := .right) hturn]

end Sys2Proof.Machine
end

section
/-! The arbiter on explicit operands (R141). -/

namespace Sys2Proof.Machine

/-- Bit `c.code - 1` of a five-bit operand is the flag of the category (R65). -/
theorem PerCategory.get_ofBits (v : BitVec 5) (c : Category) :
    (PerCategory.ofBits v).get c = v.getLsbD (c.code.toNat - 1) := by
  cases c <;> rfl

/-- Settles O41: ARB answers the arbiter's result on the flags its operands hold. -/
theorem arbPicksTheHighestEligibleCategory : Obligations.ArbPicksTheHighestEligibleCategory := by
  intro s o
  refine ⟨arbitrate o.alerts (.ofBits o.en) (.ofBits o.cond), rfl, ?_⟩
  simp only [← PerCategory.get_ofBits]
  exact arbitrate_spec o.alerts (.ofBits o.en) (.ofBits o.cond)

end Sys2Proof.Machine
end

section
/-! Brightness and scaling (R152 to R154): a product of two bytes over 255 does not exceed its first factor, so neither
wraps; and the four points at which the pulse is pinned. -/

namespace Sys2Proof.Machine

/-- Scaling by a byte over 255 increases no byte: the common bound of the swing (R152) and of a channel (R154). -/
theorem mul_div_255_le (x b : Byte) : x.toNat * b.toNat / 255 ≤ x.toNat :=
  Nat.div_le_of_le_mul (by rw [Nat.mul_comm 255]; exact Nat.mul_le_mul_left _ (Nat.le_of_lt_succ b.isLt))

/-! ### Brightness (R152) -/

/-- Under R21 the sum of floor and swing does not wrap (R152). -/
theorem toNat_brightness {baseline range : Byte} (h : baseline.toNat + range.toNat ≤ 255) (pulse : Byte) :
    (brightness baseline range pulse).toNat = baseline.toNat + range.toNat * pulse.toNat / 255 := by
  have hswing := mul_div_255_le range pulse
  rw [brightness, BitVec.toNat_ofNat, Nat.mod_eq_of_lt (by omega)]

/-! ### Scaling (R154) -/

theorem toNat_scaleChannel (x b : Byte) : (scaleChannel x b).toNat = x.toNat * b.toNat / 255 := by
  rw [scaleChannel, BitVec.toNat_ofNat, Nat.mod_eq_of_lt ((mul_div_255_le x b).trans_lt x.isLt)]

theorem toNat_scaleChannel_le (x b : Byte) : (scaleChannel x b).toNat ≤ x.toNat :=
  (toNat_scaleChannel x b).trans_le (mul_div_255_le x b)

@[simp] theorem scaleChannel_full (x : Byte) : scaleChannel x 255 = x :=
  BitVec.eq_of_toNat_eq ((toNat_scaleChannel x 255).trans (Nat.mul_div_cancel _ (by decide)))

@[simp] theorem scaleChannel_zero (x : Byte) : scaleChannel x 0 = 0 := by
  simp [scaleChannel]

@[simp] theorem scale_full (col : Colour) : scale col 255 = col := by
  simp only [scale, scaleChannel_full]

@[simp] theorem scale_zero (col : Colour) : scale col 0 = ⟨0, 0, 0⟩ := by
  simp only [scale, scaleChannel_zero]

/-! ### The pinned points of the pulse (R153) -/

section
variable {r P : Nat}

theorem pulse8_start (hP : 0 < P) : pulse8 0 P = 128 := by
  rw [pulse8, if_neg hP.ne', if_pos rfl]

theorem pulse8_quarter (hP : 0 < P) (h : 4 * r = P) : pulse8 r P = 255 := by
  rw [pulse8, if_neg hP.ne', if_neg (by omega), if_pos h]

theorem pulse8_half (hP : 0 < P) (h : 2 * r = P) : pulse8 r P = 128 := by
  rw [pulse8, if_neg hP.ne', if_neg (by omega), if_neg (by omega), if_pos h]

theorem pulse8_three_quarters (hP : 0 < P) (h : 4 * r = 3 * P) : pulse8 r P = 0 := by
  rw [pulse8, if_neg hP.ne', if_neg (by omega), if_neg (by omega), if_neg (by omega), if_pos h]

end

/-- Settles O44: the brightness is floor plus swing without a wrap, and the swing is at most the range. -/
theorem brightnessStaysWithinItsBounds : Obligations.BrightnessStaysWithinItsBounds := by
  refine ⟨fun maxLen cfg c t hlegal => ?bounds, fun col b => ?scaling, fun P hP => ?pulse⟩
  case bounds =>
    obtain ⟨-, -, hfloor, hsum⟩ := (legalRecordsKeepTheHardConstraints maxLen cfg).mp hlegal
    rw [b8, toNat_brightness hsum]
    exact ⟨hfloor, Nat.le_add_right _ _, Nat.add_le_add_left (mul_div_255_le _ _) _, hsum, rfl⟩
  case scaling =>
    exact ⟨toNat_scaleChannel _ _, toNat_scaleChannel _ _, toNat_scaleChannel _ _, toNat_scaleChannel_le _ _,
      toNat_scaleChannel_le _ _, toNat_scaleChannel_le _ _, scale_full col, scale_zero col⟩
  case pulse =>
    exact ⟨pulse8_start hP, fun h => pulse8_quarter hP (by omega), fun h => pulse8_half hP (by omega),
      fun h => pulse8_three_quarters hP (by omega)⟩

end Sys2Proof.Machine
end

section
/-! The frame of an advancing tick in mode RUNNING (R155 to R159): the events of a strip, and the colour of a position as
body or tail. -/

namespace Sys2Proof.Machine

/-! ### The events of a strip (R158) -/

/-- A strip given by a colour for each position: one write a position in increasing order, then the show. -/
theorem emitStrip_map_range (side : Side) (f : Nat → Colour) (n : Nat) :
    emitStrip side ((List.range n).map f) =
      ((List.range n).map fun i => SurfEvent.surfWrite side i (f i)) ++ [SurfEvent.surfShow side] := by
  have hwrites := stripWrites_range side f 0 n
  simp only [Nat.zero_add] at hwrites
  rw [emitStrip, hwrites]

theorem emitStrip_renderStrip (cfg : CfgRec) (side : Side) (pr : PriorityResult) (t : Time) :
    emitStrip side (renderStrip cfg side pr t) =
      ((List.range (cfg.len.get side).toNat).map fun i => SurfEvent.surfWrite side i (positionColour cfg side pr t i)) ++
        [SurfEvent.surfShow side] :=
  emitStrip_map_range side _ _

theorem frameEvents_of_running {s : State} (h : s.modeRead = .running) :
    s.frameEvents = emitStrip .left (renderStrip s.cfg .left (s.priority .left) s.now) ++
      emitStrip .right (renderStrip s.cfg .right (s.priority .right) s.now) := if_pos h

theorem drawsOfTick_of_running {s : State} (h : s.modeRead = .running) : s.drawsOfTick = 0 := if_pos h

/-! ### Body and tail (R155) -/

section
variable {cfg : CfgRec} {side : Side} {c : Category} {t : Time} {i : Nat}

@[simp] theorem positionColour_none : positionColour cfg side none t i = cfg.colAmbient := rfl

theorem positionColour_body (h : i < (cfg.len.get side).toNat - tailLen cfg side) :
    positionColour cfg side (some c) t i = cfg.colAmbient := if_pos h

theorem positionColour_tail (h : (cfg.len.get side).toNat - tailLen cfg side ≤ i) :
    positionColour cfg side (some c) t i = scale (cfg.col.get c) (b8 cfg c t) := if_neg h.not_gt

end

/-- The ambient rule and the two regions leave no position's colour open (R155). -/
theorem eq_positionColour {cfg : CfgRec} {side : Side} {t : Time} {colour : PriorityResult → Nat → Colour}
    (hnone : ∀ i, colour none i = cfg.colAmbient)
    (hbody : ∀ c i, i < (cfg.len.get side).toNat - tailLen cfg side → colour (some c) i = cfg.colAmbient)
    (htail : ∀ c i, (cfg.len.get side).toNat - tailLen cfg side ≤ i →
      colour (some c) i = scale (cfg.col.get c) (b8 cfg c t)) (pr : PriorityResult) :
    colour pr = positionColour cfg side pr t := by
  funext i
  cases pr with
  | none => rw [hnone, positionColour_none]
  | some c =>
    obtain h | h := Nat.lt_or_ge i ((cfg.len.get side).toNat - tailLen cfg side)
    · rw [hbody c i h, positionColour_body h]
    · rw [htail c i h, positionColour_tail h]

/-- Settles O42: the answer gives the mode and the two results of the state the debouncers left, whose frame is body and
tail by position. -/
theorem runningTickEmitsBodyAndTail : Obligations.RunningTickEmitsBodyAndTail := by
  intro s t d prL prR hgate htick hanswer hmode hprL hprR colour hnone hbody htail
  rw [exec_tick_of_gate s hgate] at htick
  cases htick
  cases hanswer
  have hcfg : s.packetStep.post.tickState.cfg = s.cfg := by simp
  have hnow : s.packetStep.post.tickState.now = s.pins.now := by simp [State.now]
  have hdraws : s.packetStep.post.tickState.draws = s.draws := by simp
  generalize s.packetStep.post.tickState = v at hmode hprL hprR hcfg hnow hdraws
  have hrunning : v.modeRead = .running :=
    (Mode.code_eq_running _).mp ((extract_tickData v s.packetStep.status).1.symm.trans hmode)
  obtain ⟨hleft, hright⟩ := extract_tickData_priority v s.packetStep.status
  have hl : v.priority .left = prL := prCode_injective (hleft.symm.trans hprL)
  have hr : v.priority .right = prR := prCode_injective (hright.symm.trans hprR)
  have hcolour : ∀ side pr, colour side pr = positionColour s.cfg side pr s.pins.now := fun side =>
    eq_positionColour (hnone side) (hbody side) (htail side)
  refine ⟨?events, ?draws⟩
  case events =>
    rw [State.emitFrame_surf, frameEvents_of_running hrunning, hl, hr, hcfg, hnow, emitStrip_renderStrip,
      emitStrip_renderStrip, hcolour, hcolour]
    exact (List.append_assoc _ _ _).symm
  case draws => rw [State.emitFrame_draws, drawsOfTick_of_running hrunning, hdraws, Nat.add_zero]

end Sys2Proof.Machine
end

section
/-! RECONF (R173), OVRD (R174) and STAT (R175): each operation's next state, and the fields of the status snapshot. -/

namespace Sys2Proof.Machine

/-! ### RECONF and OVRD -/

theorem exec_reconf_of_legal {s : State} (h : s.pins.cfgPort.legal s.params.maxLen = true) :
    exec .reconf s =
      .next (({ s with cfg := s.pins.cfgPort } : State).respond .ok 0 [surfConfigOf s.pins.cfgPort]) :=
  if_pos h

/-- Settles O46: the two branches of RECONF's check of R21. -/
theorem reconfLoadsTheWholeRecord : Obligations.ReconfLoadsTheWholeRecord :=
  fun s => ⟨exec_reconf_of_legal, fun hillegal => (exec_refused_iff _ s _).mpr (.inr ⟨rfl, hillegal, rfl⟩)⟩

/-- Settles O48: OVRD reads nothing, so its next state is the statement's by unfolding. -/
theorem ovrdWritesTheOverride : Obligations.OvrdWritesTheOverride :=
  fun _ _ => rfl

/-! ### STAT -/

/-- Six Booleans that stand in a word from bit `lo` on, bit by bit (R14). -/
theorem getLsbD_of_extract_eq_toBits {w : ResData} {lo : Nat} {x : Bits6} (h : w.extractLsb' lo 6 = x.toBits) :
    w.getLsbD lo = x.lt ∧ w.getLsbD (lo + 1) = x.rt ∧ w.getLsbD (lo + 2) = x.ap ∧ w.getLsbD (lo + 3) = x.ch ∧
    w.getLsbD (lo + 4) = x.pl ∧ w.getLsbD (lo + 5) = x.tr := by
  have hbit : ∀ j, j < 6 → w.getLsbD (lo + j) = x.toBits.getLsbD j := by
    intro j hj
    rw [← h, BitVec.getLsbD_extractLsb', decide_eq_true hj, Bool.true_and]
  obtain ⟨hlt, hrt, hap, hch, hpl, htr⟩ := getLsbD_toBits x
  exact ⟨(hbit 0 (by decide)).trans hlt, (hbit 1 (by decide)).trans hrt, (hbit 2 (by decide)).trans hap,
    (hbit 3 (by decide)).trans hch, (hbit 4 (by decide)).trans hpl, (hbit 5 (by decide)).trans htr⟩

section
variable (s : State)

/-- The fields of the vehicle state in the snapshot (R175). -/
theorem extract_statData_vs :
    (statData s).extractLsb' 0 6 = s.vs.bits6.toBits ∧ (statData s).extractLsb' 6 2 = s.vs.ls.code ∧
    (statData s).extractLsb' 8 2 = s.vs.rs.code ∧ (statData s).extractLsb' 10 8 = s.vs.flags := by
  simp (disch := decide) [statData, extract_or, extract_place_same, extract_place_disjoint, extract_placeBit_disjoint]

/-- The fields of the liveness record in the snapshot (R175). -/
theorem extract_statData_lv :
    (statData s).extractLsb' 19 32 = s.pins.now - s.lv.lastRx ∧ (statData s).extractLsb' 52 32 = s.lv.lastSeq ∧
    (statData s).extractLsb' 85 8 = s.lv.q := by
  simp (disch := decide) [statData, extract_or, extract_place_same, extract_place_disjoint, extract_placeBit_disjoint,
    elapsed, State.now]

/-- The receive status, the mode and the override in the snapshot, and nothing above its last flag (R175). -/
theorem extract_statData_above_lv :
    (statData s).extractLsb' 93 4 = s.rxstat.code ∧ (statData s).extractLsb' 97 3 = s.modeRead.code ∧
    (statData s).extractLsb' 101 6 = s.ovr.bits6.toBits ∧ (statData s).extractLsb' 110 18 = 0 := by
  simp (disch := decide) [statData, extract_or, extract_place_same, extract_place_disjoint, extract_placeBit_disjoint]

/-- The stored flags in the snapshot (R175). -/
theorem getLsbD_statData_flags :
    (statData s).getLsbD 18 = s.lv.valid ∧ (statData s).getLsbD 84 = s.lv.qValid ∧
    (statData s).getLsbD 100 = s.ovr.en ∧ (statData s).getLsbD 107 = s.db.left.active ∧
    (statData s).getLsbD 108 = s.db.right.active ∧ (statData s).getLsbD 109 = s.mb.fresh := by
  simp (disch := decide) only [statData, getLsbD_or', getLsbD_placeBit_same, getLsbD_placeBit_other,
    getLsbD_place_disjoint, Bool.or_false, Bool.false_or, and_self]

/-- The code of the mode a rule reads (R13, R24, R190). -/
theorem code_modeRead : s.modeRead.code = if s.params.hasModeFsm then s.mls.mode.code else 4 :=
  apply_ite Mode.code _ _ _

end

/-- Settles O50: STAT answers the snapshot, whose fields are read back at their places. -/
theorem statReportsTheSnapshot : Obligations.StatReportsTheSnapshot := by
  intro s
  obtain ⟨hbits, hls, hrs, hflags⟩ := extract_statData_vs s
  obtain ⟨hage, hseq, hq⟩ := extract_statData_lv s
  obtain ⟨hrxstat, hmode, hovr, habove⟩ := extract_statData_above_lv s
  obtain ⟨hvalid, hqValid, hen, hleft, hright, hfresh⟩ := getLsbD_statData_flags s
  obtain ⟨hlt, hrt, hap, hch, hpl, htr⟩ := getLsbD_of_extract_eq_toBits hbits
  obtain ⟨holt, hort, hoap, hoch, hopl, hotr⟩ := getLsbD_of_extract_eq_toBits hovr
  have halive : (statData s).getLsbD 51 = true ↔
      s.lv.valid = true ∧ (s.pins.now - s.lv.lastRx).toNat ≤ s.cfg.deadWindow.toNat := by
    rw [getLsbD_statData_alive, alive_iff, State.now]
  exact ⟨statData s, rfl, hlt, hrt, hap, hch, hpl, htr, hls, hrs, hflags, hvalid, hage, halive, hseq, hqValid, hq,
    hrxstat, hmode.trans (code_modeRead s), hen, holt, hort, hoap, hoch, hopl, hotr, hleft, hright, hfresh, habove⟩

end Sys2Proof.Machine
end

section
/-! The order of a tick (R170, D18): the packet sub-step that POLL performs, then the frame gate (R171). -/

namespace Sys2Proof.Machine

/-! ### Before the frame period (R171) -/

/-- A yielding tick, while the frame period has not elapsed. -/
theorem exec_tick_of_gate_closed (s : State) (h : (s.pins.now - s.tf).toNat < s.cfg.framePeriod.toNat) :
    exec .tick s = .next (s.packetStep.post.respond .yield (yieldData s.packetStep.status) []) := by
  have hclosed : s.packetStep.post.gateOpen = false := by
    rw [← Bool.not_eq_true, gateOpen_iff]
    simpa using h
  rw [exec_tick, State.afterPacket, hclosed]
  rfl

theorem yieldData_eq_ofNat (st : Status) : yieldData st = BitVec.ofNat 128 (1024 * st.code.toNat) :=
  BitVec.eq_of_toNat_eq ((toNat_place 128 10 st.code).trans (BitVec.toNat_ofNat _ _).symm)

/-- Settles O35: both operations begin from the state and the status the packet sub-step leaves. -/
theorem tickYieldsBeforeTheFramePeriod : Obligations.TickYieldsBeforeTheFramePeriod := by
  intro s u st d hpoll hanswer hgate
  cases hpoll
  cases hanswer
  rw [exec_tick_of_gate_closed s hgate, yieldData_eq_ofNat]
  rfl

/-! ### A tick after a poll (R170) -/

/-- What follows the packet sub-step of a tick does not read the output ports. -/
theorem afterPacket_forgets_outputs (s : State) (a : Option Answer) (e : List SurfEvent) (st : Status) :
    ({ s with answer := a, surf := e } : State).afterPacket st = s.afterPacket st := by
  have hgate : ({ s with answer := a, surf := e } : State).gateOpen = s.gateOpen := rfl
  have htick : ({ s with answer := a, surf := e } : State).tickState = { s.tickState with answer := a, surf := e } := by
    rw [tickState_eq, tickState_eq]
    rfl
  unfold State.afterPacket
  rw [hgate, htick]
  cases s.gateOpen <;> rfl

/-- POLL takes the packet, so that a TICK after it finds none and goes on from the state POLL left. -/
theorem exec_tick_after_poll {s u : State} (h : exec .poll s = .next u) :
    exec .tick u = .next (s.packetStep.post.afterPacket .noPkt) := by
  cases h
  have htaken : (s.packetStep.post.respond s.packetStep.status s.packetStep.data []).mb.fresh = false :=
    congrArg Mailbox.fresh s.packetStep_post_mb
  rw [exec_tick, packetStep_of_not_fresh _ htaken]
  exact congrArg _ (afterPacket_forgets_outputs s.packetStep.post _ _ _)

/-- The answer of a tick, yielding or advancing: in its result word the packet status adds to bits that do not depend
on it (R66, R170). -/
theorem afterPacket_answer (s : State) : ∃ (st : Status) (low : ResData), low.extractLsb' 10 118 = 0 ∧
    ∀ pst, (s.afterPacket pst).answer =
      some { status := st, data := low ||| place 128 10 pst.code, statCfg := none } := by
  unfold State.afterPacket
  cases s.gateOpen with
  | false => exact ⟨.yield, 0#128, rfl, fun pst => by rw [BitVec.zero_or]; rfl⟩
  | true =>
    refine ⟨.ok, _, ?_, fun _ => rfl⟩
    simp (disch := decide) [extract_or, extract_placeBit_disjoint, extract_place_disjoint]

/-- The packet status in the result word of a tick, and what stands below and above it (R66). -/
theorem extract_or_place_status {low : ResData} (hlow : low.extractLsb' 10 118 = 0) (c : BitVec 4) :
    (low ||| place 128 10 c).extractLsb' 10 4 = c ∧
    (low ||| place 128 10 c).extractLsb' 0 10 = low.extractLsb' 0 10 ∧
    (low ||| place 128 10 c).extractLsb' 14 114 = 0 := by
  have h4 : low.extractLsb' 10 4 = 0 := by
    rw [← extract_extract low 10 (show 0 + 4 ≤ 118 by decide), hlow]
    rfl
  have h14 : low.extractLsb' 14 114 = 0 := by
    rw [← extract_extract low 10 (show 4 + 114 ≤ 118 by decide), hlow]
    rfl
  simp (disch := decide) [extract_or, extract_place_same, extract_place_disjoint, h4, h14]

/-- Settles O34: with and without the POLL the tick goes on from one state, with another packet status. -/
theorem tickBeginsWithThePacketSubStep : Obligations.TickBeginsWithThePacketSubStep := by
  intro s
  obtain ⟨st', low, hlow, hanswer⟩ := afterPacket_answer s.packetStep.post
  obtain ⟨hstatus, hbelow, habove⟩ := extract_or_place_status hlow s.packetStep.status.code
  obtain ⟨hstatus', hbelow', habove'⟩ := extract_or_place_status hlow Status.noPkt.code
  exact ⟨_, _, _, s.packetStep.status, st', s.packetStep.data, _, _, exec_poll s, rfl, exec_tick s,
    exec_tick_after_poll (exec_poll s), hanswer _, hanswer _, afterPacket_status_congr _ _ _, hstatus, hstatus',
    hbelow.trans hbelow'.symm, habove, habove'⟩

end Sys2Proof.Machine
end

section
/-! The override reaches the samples alone (R132, R174): each operation confines another value of it to the override
register, the debouncers and the output ports. -/

namespace Sys2Proof.Machine

/-- The packet sub-step carries the override along and does not read it. -/
theorem packetStep_with_ovr (s : State) (o : OverrideReg) :
    ({ s with ovr := o } : State).packetStep = { s.packetStep with post := { s.packetStep.post with ovr := o } } := by
  cases hf : s.mb.fresh with
  | false => rw [packetStep_of_not_fresh s hf, packetStep_of_not_fresh { s with ovr := o } hf]
  | true =>
    cases hd : pktDecode s.params s.mb.data s.mb.len with
    | error r => rw [packetStep_rejected s r hf hd, packetStep_rejected { s with ovr := o } r hf hd]
    | ok f => rw [packetStep_accepted s f hf hd, packetStep_accepted { s with ovr := o } f hf hd]

/-- Sub-steps 2 to 6 read the override for the debouncers alone (R132, R172). -/
theorem tickState_with_ovr (s : State) (o : OverrideReg) :
    ∃ d, ({ s with ovr := o } : State).tickState = { s.tickState with ovr := o, db := d } := by
  refine ⟨({ s with ovr := o } : State).tickState.db, ?_⟩
  rw [tickState_eq, tickState_eq]
  rfl

theorem afterPacket_with_ovr (s : State) (o : OverrideReg) (st : Status) :
    ∃ d a e, ({ s with ovr := o } : State).afterPacket st =
      { s.afterPacket st with ovr := o, db := d, answer := a, surf := e } := by
  obtain ⟨d, htick⟩ := tickState_with_ovr s o
  have hgate : ({ s with ovr := o } : State).gateOpen = s.gateOpen := rfl
  unfold State.afterPacket
  rw [hgate, htick]
  cases s.gateOpen <;> exact ⟨_, _, _, rfl⟩

theorem reportTransport_with_ovr (s : State) (o : OverrideReg) (ok : Bool) :
    ({ s with ovr := o } : State).reportTransport ok = { s.reportTransport ok with ovr := o } := by
  simp only [State.reportTransport]
  split_ifs <;> rfl

/-- Two runs of an operation from states that differ in the override alone end in states that differ in it, in the
debounce records, in the answer and in the surface events alone. -/
theorem exec_with_ovr {i : Instr} {s t t' : State} {o : OverrideReg} (h : exec i s = .next t)
    (h' : exec i { s with ovr := o } = .next t') :
    ∃ o' d a e, t' = { t with ovr := o', db := d, answer := a, surf := e } := by
  cases i with
  | bfx | sdec | csum | pkenc | pkdec | stat | arb =>
    cases exec_effect h
    cases exec_effect h'
    exact ⟨_, _, _, _, rfl⟩
  | rx | ovrd =>
    cases h
    cases h'
    exact ⟨_, _, _, _, rfl⟩
  | reconf =>
    simp only [exec, execReconf] at h h'
    split at h <;> cases h
    split at h' <;> cases h'
    exact ⟨_, _, _, _, rfl⟩
  | tinit =>
    cases h
    cases h'
    rw [reportTransport_with_ovr]
    exact ⟨_, _, _, _, rfl⟩
  | poll =>
    cases h
    cases h'
    rw [packetStep_with_ovr]
    exact ⟨_, _, _, _, rfl⟩
  | tick =>
    cases h
    cases h'
    rw [packetStep_with_ovr]
    exact ⟨_, afterPacket_with_ovr _ _ _⟩

/-- Settles O49: none of the registers named, and nothing `alive` reads, is among those that differ. -/
theorem overrideNeverReachesTheVehicleState : Obligations.OverrideNeverReachesTheVehicleState := by
  intro i s t t' o h h'
  obtain ⟨o', d, a, e, rfl⟩ := exec_with_ovr h h'
  exact ⟨rfl, rfl, rfl, rfl, rfl, rfl, rfl, rfl⟩

end Sys2Proof.Machine
end

section
/-! The mode lifecycle (R190 to R196): the report of the transport, what an accepted packet does to the mode, and what the
timers of an advancing tick do to it. -/

namespace Sys2Proof.Machine

/-! ### The report of the transport (R192) -/

theorem reportTransport_of_initTransport {s : State} (hfsm : s.params.hasModeFsm = true)
    (hmode : s.mls.mode = .initTransport) (ok : Bool) :
    s.reportTransport ok = { s with mls := { s.mls with mode := if ok then .waitLink else .error } } :=
  if_pos ⟨hfsm, hmode⟩

theorem reportTransport_of_not_initTransport {s : State}
    (h : s.params.hasModeFsm = false ∨ s.mls.mode ≠ .initTransport) (ok : Bool) : s.reportTransport ok = s := by
  refine if_neg fun ⟨hfsm, hmode⟩ => ?_
  obtain habsent | hother := h
  · exact Bool.eq_false_iff.mp habsent hfsm
  · exact hother hmode

theorem exec_tinit (o : FormatI) (s : State) : exec (.tinit o) s = .next ((s.reportTransport o.ok).respond .ok 0 []) :=
  rfl

/-- Settles O51: the two branches of the transport's report. -/
theorem tinitReportsTheTransport : Obligations.TinitReportsTheTransport := by
  refine fun s o => ⟨fun hfsm hmode => ?_, fun hignored => ?_⟩
  · rw [exec_tinit, reportTransport_of_initTransport hfsm hmode]
    rfl
  · rw [exec_tinit, reportTransport_of_not_initTransport hignored]
    rfl

/-! ### An accepted packet (R193) -/

/-- The data-seen flag under format A, and true under format B, is what R195 calls meaningful. -/
theorem meaningful_eq {p : Params} {f : PktFields} {m : Bool} (ha : p.fmt = .a → m = f.flags.getLsbD 0)
    (hb : p.fmt = .b → m = true) : meaningful p f = m := by
  cases hfmt : p.fmt with
  | a => rw [meaningful, hfmt, ha hfmt]
  | b => rw [meaningful, hfmt, hb hfmt]

/-- Settles O53, from the state an accepting POLL leaves. -/
theorem acceptedPacketMovesTheMode : Obligations.AcceptedPacketMovesTheMode := by
  intro s f m hfresh hok hfsm ha hb
  refine ⟨_, exec_poll_of_accepted hfresh hok, ?_⟩
  simp only [hfsm, if_true, meaningful_eq ha hb, ModeRegs.onPacket_mode, ModeRegs.onPacket_modeT,
    ModeRegs.onPacket_dataT, ModeRegs.onPacket_dataV]
  refine ⟨trivial, fun hm => ?data, fun hm => ?noData, fun hwait => if_pos hwait, fun hlink hdata => ?other⟩
  case data => simp [hm]
  case noData => simp [hm]
  case other => exact if_neg (not_or.mpr ⟨hlink, hdata⟩)

/-! ### The timers of an advancing tick (R194) -/

theorem linkSilent_iff (now : Time) (lv : LivenessRecord) (cfg : CfgRec) :
    linkSilent now lv cfg = true ↔ lv.valid = false ∨ cfg.linkTimeout.toNat < (now - lv.lastRx).toNat := by
  simp [linkSilent, elapsed, BitVec.lt_def]

theorem ModeRegs.stale_iff (now : Time) (cfg : CfgRec) (r : ModeRegs) :
    r.stale now cfg = true ↔ r.dataV = false ∨ cfg.dataTimeout.toNat < (now - r.dataT).toNat := by
  simp [ModeRegs.stale, elapsed, BitVec.lt_def]

section
variable {now : Time} {lv : LivenessRecord} {cfg : CfgRec} {r : ModeRegs}

theorem ModeRegs.tickMode_of_error (h : r.mode = .error) : r.tickMode now lv cfg = .error := by
  simp only [ModeRegs.tickMode, h]

theorem ModeRegs.tickMode_of_initTransport (h : r.mode = .initTransport) :
    r.tickMode now lv cfg = .initTransport := by
  simp only [ModeRegs.tickMode, h]

theorem ModeRegs.tickMode_of_waitLink (h : r.mode = .waitLink) : r.tickMode now lv cfg = .waitLink := by
  simp only [ModeRegs.tickMode, h]

theorem ModeRegs.tickMode_of_booting (h : r.mode = .booting) :
    r.tickMode now lv cfg = if cfg.bootTime.toNat ≤ (now - r.modeT).toNat then .initTransport else .booting := by
  simp only [ModeRegs.tickMode, h, elapsed, BitVec.le_def]

theorem ModeRegs.tickMode_of_waitData (h : r.mode = .waitData) :
    r.tickMode now lv cfg = if linkSilent now lv cfg then .waitLink else .waitData := by
  simp only [ModeRegs.tickMode, h]

theorem ModeRegs.tickMode_of_running (h : r.mode = .running) :
    r.tickMode now lv cfg =
      if linkSilent now lv cfg then .waitLink else if r.stale now cfg then .waitData else .running := by
  simp only [ModeRegs.tickMode, h]

end

/-- With the state machine an advancing tick writes the mode and no other mode register (R194). -/
theorem State.tickState_mls_of_present {s : State} (h : s.params.hasModeFsm = true) :
    s.tickState.mls = { s.mls with mode := s.mls.tickMode s.now s.lv s.cfg } := by
  rw [tickState_eq]
  exact if_pos h

/-- Settles O54: the mode is that of the timers, mode by mode. -/
theorem tickMovesTheModeByItsTimers : Obligations.TickMovesTheModeByItsTimers := by
  intro s silent stale hfresh hfsm hgate hsilent hstale
  rw [← linkSilent_iff s.pins.now s.lv s.cfg] at hsilent
  rw [← ModeRegs.stale_iff s.pins.now s.cfg s.mls] at hstale
  have htick := exec_tick_of_gate s hgate
  rw [packetStep_of_not_fresh s hfresh] at htick
  refine ⟨_, htick, ?_⟩
  rw [State.emitFrame_mls, State.tickState_mls_of_present hfsm, State.now, hsilent, hstale]
  refine ⟨rfl, rfl, rfl, ModeRegs.tickMode_of_error, ModeRegs.tickMode_of_initTransport, fun h hboot => ?bootEnds,
    fun h hboot => ?boots, ModeRegs.tickMode_of_waitLink, fun h hs => ?silent, fun h hs => ?waits, fun h hs hd => ?stale,
    fun h hs hd => ?runs⟩
  case bootEnds => exact (ModeRegs.tickMode_of_booting h).trans (if_pos hboot)
  case boots => exact (ModeRegs.tickMode_of_booting h).trans (if_neg hboot.not_ge)
  case silent =>
    obtain h | h := h
    · exact (ModeRegs.tickMode_of_waitData h).trans (if_pos hs)
    · exact (ModeRegs.tickMode_of_running h).trans (if_pos hs)
  case waits => exact (ModeRegs.tickMode_of_waitData h).trans (if_neg hs)
  case stale => exact (ModeRegs.tickMode_of_running h).trans ((if_neg hs).trans (if_pos hd))
  case runs => exact (ModeRegs.tickMode_of_running h).trans ((if_neg hs).trans (if_neg hd))

/-! ### The transition table (R191) -/

/-- Where the packet sub-step can take the mode (R191, R193). -/
inductive PacketMove : Mode → Mode → Prop
  | stay (m : Mode) : PacketMove m m
  | link : PacketMove .waitLink .waitData
  | linkAndData : PacketMove .waitLink .running
  | data : PacketMove .waitData .running

/-- Where the timers of an advancing tick can take the mode (R191, R194). -/
inductive TimerMove : Mode → Mode → Prop
  | stay (m : Mode) : TimerMove m m
  | bootEnd : TimerMove .booting .initTransport
  | silentLink : TimerMove .waitData .waitLink
  | silentRun : TimerMove .running .waitLink
  | staleData : TimerMove .running .waitData

theorem ModeRegs.onPacket_move (m : Bool) (rx : Time) (r : ModeRegs) : PacketMove r.mode (r.onPacket m rx).mode := by
  rw [ModeRegs.onPacket_mode]
  split
  case isTrue h =>
    obtain h | h := h <;> rw [h] <;> cases m
    · exact .link
    · exact .linkAndData
    · exact .stay _
    · exact .data
  case isFalse => exact .stay _

theorem ModeRegs.tickMode_move (now : Time) (lv : LivenessRecord) (cfg : CfgRec) (r : ModeRegs) :
    TimerMove r.mode (r.tickMode now lv cfg) := by
  obtain h | ⟨hr, h⟩ | ⟨hr, h⟩ | ⟨hr, h | h⟩ := ModeRegs.tickMode_cases now lv cfg r
  · rw [h]
    exact .stay _
  all_goals rw [hr, h]
  · exact .bootEnd
  · exact .silentLink
  · exact .silentRun
  · exact .staleData

theorem packetStep_mode_move (s : State) : PacketMove s.mls.mode s.packetStep.post.mls.mode := by
  cases hf : s.mb.fresh with
  | false =>
    rw [packetStep_of_not_fresh s hf]
    exact .stay _
  | true =>
    cases hd : pktDecode s.params s.mb.data s.mb.len with
    | error r =>
      rw [packetStep_rejected s r hf hd]
      exact .stay _
    | ok f =>
      rw [packetStep_accepted s f hf hd]
      dsimp only
      split
      · exact ModeRegs.onPacket_move _ _ _
      · exact .stay _

theorem tickState_mode_move (s : State) : TimerMove s.mls.mode s.tickState.mls.mode := by
  cases hfsm : s.params.hasModeFsm with
  | false =>
    rw [State.tickState_mls_of_absent hfsm]
    exact .stay _
  | true =>
    rw [State.tickState_mls_of_present hfsm]
    exact ModeRegs.tickMode_move _ _ _ _

theorem afterPacket_mode_move (s : State) (st : Status) : TimerMove s.mls.mode (s.afterPacket st).mls.mode := by
  obtain ⟨-, h⟩ | ⟨-, h⟩ := afterPacket_cases s st <;> rw [h]
  · exact .stay _
  · exact tickState_mode_move s

/-- A packet alone changes the mode along the table (R191). -/
theorem PacketMove.of_ne {a b : Mode} (h : PacketMove a b) (hne : b ≠ a) :
    a ≠ .error ∧ (a = .waitLink ∧ (b = .waitData ∨ b = .running) ∨ a = .waitData ∧ b = .running) := by
  cases h with
  | stay => exact absurd rfl hne
  | link | linkAndData | data => simp

/-- A packet and then the timers change the mode along the table: a packet's moves, the timers' own, or, from WAIT_DATA
by way of RUNNING, that of a silent link (R191, D24). -/
theorem PacketMove.trans_timerMove {a b c : Mode} (hp : PacketMove a b) (ht : TimerMove b c) (hne : c ≠ a) :
    a ≠ .error ∧ (a = .waitLink ∧ (c = .waitData ∨ c = .running) ∨ a = .waitData ∧ c = .running ∨
      a = .booting ∧ c = .initTransport ∨ a = .running ∧ (c = .waitData ∨ c = .waitLink) ∨
      a = .waitData ∧ c = .waitLink) := by
  cases hp with
  | stay | link | linkAndData | data => cases ht <;> simp at hne ⊢

/-- Settles O52: TINIT, a packet and the timers alone move the mode, each along its part of the table. -/
theorem modeFollowsTheTransitionTable : Obligations.ModeFollowsTheTransitionTable := by
  intro i s t h hne
  have hfsm : s.params.hasModeFsm = true := by
    by_contra habsent
    obtain ⟨hmls, -⟩ := absentModeRegistersDoNotExist i s t s.mls (Bool.eq_false_of_not_eq_true habsent) h
    exact hne (congrArg ModeRegs.mode hmls)
  refine ⟨hfsm, ?_⟩
  cases exec_effect h with
  | answerOnly | rx | reconf | ovrd => exact absurd rfl hne
  | tinit o =>
    have hmode : s.mls.mode = .initTransport := by
      by_contra hother
      rw [reportTransport_of_not_initTransport (.inr hother)] at hne
      exact hne rfl
    rw [reportTransport_of_initTransport hfsm hmode]
    simp [hmode]
  | poll => simpa using (packetStep_mode_move s).of_ne hne
  | tick =>
    simpa using (packetStep_mode_move s).trans_timerMove (afterPacket_mode_move s.packetStep.post _) hne

end Sys2Proof.Machine
end

section
/-! How a step can stop (R210, R214): never with a fault, and with a refusal only where the spec leaves the behaviour
undefined; and what `rst` does while it is high (R240). -/

namespace Sys2Proof.Machine

theorem step_of_rst {s : State} (hrst : s.pins.rst = true) : step s = .next s.holdInReset :=
  if_pos hrst

/-- Settles O8: the step is the hold in reset. -/
theorem heldInResetAcceptsNoCommand : Obligations.HeldInResetAcceptsNoCommand :=
  fun _ hrst => step_of_rst hrst

/-- The release of reset on a record that breaks R21 (R240, U5). -/
theorem step_of_illegal_release {s : State} (hrst : s.pins.rst = false) (hheld : s.rstHeld = true)
    (hillegal : s.pins.cfgPort.legal s.params.maxLen = false) : step s = .refused .illegalConfig := by
  simp [step, State.cfgRead, hrst, hheld, hillegal]

theorem runCommand_refused_iff (s : State) (r : Refusal) :
    runCommand s = .refused r ↔ ∃ i, decode s.pins.cmd = .ok i ∧ exec i s = .refused r := by
  cases hd : decode s.pins.cmd with
  | error e => simp [runCommand_of_error hd]
  | ok i => simp [runCommand_of_ok hd]

/-- The two places where a step is refused: the release of reset, and a command (R240, log 4). -/
theorem step_refused_iff (s : State) (r : Refusal) :
    step s = .refused r ↔ s.pins.rst = false ∧
      (s.rstHeld = true ∧ r = .illegalConfig ∧ s.pins.cfgPort.legal s.params.maxLen = false ∨
       s.rstHeld = false ∧ s.pins.cmdValid = true ∧ ∃ i, decode s.pins.cmd = .ok i ∧ exec i s = .refused r) := by
  cases hrst : s.pins.rst with
  | true => simp [step_of_rst hrst]
  | false =>
    cases hheld : s.rstHeld with
    | true =>
      cases hlegal : s.pins.cfgPort.legal s.params.maxLen with
      | true => simp [step_of_release s hrst hheld hlegal]
      | false => simp [step_of_illegal_release hrst hheld hlegal, eq_comm (a := r)]
    | false =>
      cases hvalid : s.pins.cmdValid with
      | false => simp [step_of_no_command hrst hheld hvalid]
      | true =>
        rw [step_of_command s hrst hheld hvalid, ← runCommand_refused_iff]
        cases runCommand s <;> simp

/-- Outside the extractor's precondition, in the three ways of R82. -/
theorem extractOk_eq_false_iff (start width : Nat) :
    extractOk start width = false ↔ width = 0 ∨ 64 < width ∨ 64 < start + width := by
  rw [← Bool.not_eq_true, extractOk_iff]
  omega

/-- Settles O7: a refused step is a refused release or a refused operation, and `exec` refuses two of them. -/
theorem onlyUndefinedCasesStop : Obligations.OnlyUndefinedCasesStop := by
  refine fun s => ⟨fun f => (nomatch f), fun r => ?_⟩
  simp only [step_refused_iff, exec_refused_iff, extractOk_eq_false_iff]
  constructor
  · rintro ⟨hrst, ⟨hheld, hr, hillegal⟩ |
      ⟨hheld, hvalid, i, hd, ⟨hr, o, rfl, hout⟩ | ⟨hr, hillegal, rfl⟩⟩⟩
    · exact .inr ⟨hrst, hr, hillegal, .inl hheld⟩
    · exact .inl ⟨hrst, hheld, hvalid, hr, o, hd, hout⟩
    · exact .inr ⟨hrst, hr, hillegal, .inr ⟨hvalid, hd⟩⟩
  · rintro (⟨hrst, hheld, hvalid, hr, o, hd, hout⟩ | ⟨hrst, hr, hillegal, hcause⟩)
    · exact ⟨hrst, .inr ⟨hheld, hvalid, _, hd, .inl ⟨hr, o, rfl, hout⟩⟩⟩
    · cases hheld : s.rstHeld with
      | true => exact ⟨hrst, .inl ⟨rfl, hr, hillegal⟩⟩
      | false =>
        obtain ⟨hvalid, hd⟩ := hcause.resolve_left (by simp [hheld])
        exact ⟨hrst, .inr ⟨rfl, hvalid, _, hd, .inr ⟨hr, hillegal, rfl⟩⟩⟩

end Sys2Proof.Machine
end

section
/-! Time on the wrapping counter (R222). -/

namespace Sys2Proof.Machine

/-- Settles O57: the number of which the second clause speaks is the elapsed time itself. -/
theorem elapsedIsTheTrueInterval : Obligations.ElapsedIsTheTrueInterval := by
  refine ⟨fun earlier later => toNat_ofNat_sub_ofNat, fun p q => ?_⟩
  rw [Pins.inTime, decide_eq_true_iff, elapsed]
  constructor
  · intro hforward
    exact ⟨_, hforward, by rw [BitVec.ofNat_toNat, BitVec.setWidth_eq, BitVec.add_comm, BitVec.sub_add_cancel]⟩
  · rintro ⟨n, hn, hnow⟩
    rw [hnow, BitVec.add_comm, BitVec.add_sub_cancel, BitVec.toNat_ofNat]
    omega

end Sys2Proof.Machine
end

section
/-! The frame of an advancing tick in a mode other than RUNNING (R198, U7): the events stand where those of RUNNING do,
and each position draws one free colour (log 6). -/

namespace Sys2Proof.Machine

theorem frameEvents_of_not_running {s : State} (h : s.modeRead ≠ .running) :
    s.frameEvents = emitStrip .left (diagnosticFrame s.draws s.cfg.len.left.toNat) ++
      emitStrip .right (diagnosticFrame (s.draws + s.cfg.len.left.toNat) s.cfg.len.right.toNat) := if_neg h

theorem drawsOfTick_of_not_running {s : State} (h : s.modeRead ≠ .running) :
    s.drawsOfTick = s.cfg.len.left.toNat + s.cfg.len.right.toNat := if_neg h

/-- A strip of a diagnostic frame: one write of a free colour a position, then the show (R158). -/
theorem emitStrip_diagnosticFrame (side : Side) (k n : Nat) :
    emitStrip side (diagnosticFrame k n) =
      ((List.range n).map fun i => SurfEvent.surfWrite side i (.ofBits (Config.freeColour (k + i)))) ++
        [SurfEvent.surfShow side] :=
  emitStrip_map_range side _ _

/-- Settles O43: the answer gives the mode of the state whose frame is emitted, and the colours are the free ones. -/
theorem diagnosticTickKeepsTheEventOrder : Obligations.DiagnosticTickKeepsTheEventOrder := by
  intro s t d hgate htick hanswer hmode
  rw [exec_tick_of_gate s hgate] at htick
  cases htick
  cases hanswer
  have hcfg : s.packetStep.post.tickState.cfg = s.cfg := by simp
  have hdraws : s.packetStep.post.tickState.draws = s.draws := by simp
  generalize s.packetStep.post.tickState = v at hmode hcfg hdraws
  obtain ⟨hcode, -⟩ := extract_tickData v s.packetStep.status
  have hother : v.modeRead ≠ .running := fun hrunning =>
    hmode (hcode.trans ((Mode.code_eq_running _).mpr hrunning))
  refine ⟨?events, ?draws⟩
  case events =>
    rw [State.emitFrame_surf, frameEvents_of_not_running hother, hcfg, emitStrip_diagnosticFrame,
      emitStrip_diagnosticFrame]
    exact ⟨_, _, (List.append_assoc _ _ _).symm⟩
  case draws => rw [State.emitFrame_draws, drawsOfTick_of_not_running hother, hcfg, hdraws, Nat.add_assoc]

end Sys2Proof.Machine
end

section
/-! Before any packet (R241): the link is not alive, so that with the override off no category has its condition, and a
tick in mode RUNNING writes the ambient colour everywhere. -/

namespace Sys2Proof.Machine

theorem alive_of_not_valid {s : State} (h : s.lv.valid = false) (t : Time) : s.alive t = false := by
  simp [State.alive, h]

/-- A side none of whose conditions holds arbitrates to NONE (R140, R143). -/
theorem priority_of_no_condition {s : State} {side : Side} (h : ∀ c, (s.conditions side).get c = false) :
    s.priority side = none := by
  cases hpr : s.priority side with
  | none => rfl
  | some c =>
    obtain ⟨hsome, -⟩ := arbitrate_spec s.cfg.alertsEn s.cfg.en (s.conditions side)
    obtain ⟨-, -, hcond, -⟩ := hsome c hpr
    rw [h c] at hcond
    contradiction

/-- Every write of a strip is that of a position (R158). -/
theorem eq_of_surfWrite_mem_emitStrip {side side' : Side} {f : Nat → Colour} {n i : Nat} {c : Colour}
    (h : SurfEvent.surfWrite side' i c ∈ emitStrip side ((List.range n).map f)) : c = f i := by
  rw [emitStrip_map_range, List.mem_append, List.mem_map, List.mem_singleton] at h
  obtain ⟨j, -, hwrite⟩ | hshow := h
  · cases hwrite
    rfl
  · cases hshow

section
variable {s : State} (hovr : s.ovr.en = false) (hlink : s.alive s.now = false)
include hovr hlink

/-- After link loss, with the override off, the debouncers see no true sample (R117, R132). -/
theorem tickSample_of_no_source (side : Side) : s.tickSample side = false := by
  obtain ⟨hleft, hright⟩ := tickSample_of_link_lost hovr hlink
  cases side
  · exact hleft
  · exact hright

/-- A tick leaves an inactive side as it is. -/
theorem afterPacket_db_get_of_no_source {side : Side} (hside : (s.db.get side).active = false) (st : Status) :
    (s.afterPacket st).db.get side = s.db.get side := by
  rw [afterPacket_db_get, tickSample_of_no_source hovr hlink, debounceStep_false_of_inactive hside, ite_self]

/-- The other four conditions are those of the safe default (R117, R143). -/
theorem tickState_priority_of_no_source {side : Side} (hside : (s.db.get side).active = false) :
    s.tickState.priority side = none := by
  have hdb : s.tickState.db.get side = s.db.get side := by
    rw [tickState_db_get, tickSample_of_no_source hovr hlink, debounceStep_false_of_inactive hside]
  have heff : s.tickState.eff6 = .zero := by
    rw [State.eff6, State.tickState_ovr, hovr, State.tickState_vs, hlink]
    rfl
  refine priority_of_no_condition fun c => ?_
  cases c with
  | turn => exact (congrArg DebounceRec.active hdb).trans hside
  | charging => exact congrArg Bits6.ch heff
  | autopilot => exact congrArg Bits6.ap heff
  | track => exact congrArg Bits6.tr heff
  | plugged => exact congrArg Bits6.pl heff

end

/-- In mode RUNNING a frame of two sides at NONE is ambient in every position (R155). -/
theorem frameEvents_ambient {s : State} (hmode : s.modeRead = .running) (hnone : ∀ side, s.priority side = none)
    {side : Side} {i : Nat} {c : Colour} (h : SurfEvent.surfWrite side i c ∈ s.frameEvents) : c = s.cfg.colAmbient := by
  rw [frameEvents_of_running hmode, List.mem_append, hnone, hnone] at h
  obtain h | h := h <;> exact eq_of_surfWrite_mem_emitStrip h

/-- Settles O45: a yielding tick writes nothing, an advancing one two sides at NONE. -/
theorem noPacketMeansAmbientOnly : Obligations.NoPacketMeansAmbientOnly := by
  intro s hvalid hfresh hovr hleft hright hfsm
  have hlink := alive_of_not_valid hvalid s.now
  have hside : ∀ side, (s.db.get side).active = false := Side.forall_iff.mpr ⟨hleft, hright⟩
  have hdb := fun side => congrArg DebounceRec.active (afterPacket_db_get_of_no_source hovr hlink (hside side) .noPkt)
  have htick := exec_tick s
  rw [packetStep_of_not_fresh s hfresh] at htick
  refine ⟨_, htick, fun side i c hmem => ?ambient, ?_⟩
  case ambient =>
    obtain ⟨-, h⟩ | ⟨-, h⟩ := afterPacket_cases s .noPkt <;> rw [h] at hmem
    · simp at hmem
    · have hmode : s.tickState.modeRead = .running := modeRead_of_absent (by simpa using hfsm)
      have hnone := fun side => tickState_priority_of_no_source hovr hlink (hside side)
      exact (frameEvents_ambient hmode hnone hmem).trans (congrArg CfgRec.colAmbient s.tickState_cfg)
  · rw [State.afterPacket_lv, State.afterPacket_mb, State.afterPacket_ovr, State.afterPacket_params]
    exact ⟨hvalid, hfresh, hovr, (hdb .left).trans hleft, (hdb .right).trans hright, hfsm, s.afterPacket_cfg _⟩

end Sys2Proof.Machine
end
